-- ==== Sys2Proof/Word.lean ====
section
/-! DEFINITION. The machine's words: 32-bit values, halfwords and bytes (00_scope.md R8, R10). -/

namespace Sys2Proof

/-- A byte of memory (20_memory.md R80). -/
abbrev Byte := BitVec 8

/-- A halfword, what LH, LHU and SH move (20_memory.md R91). -/
abbrev Half := BitVec 16

/-- A 32-bit value: a general register, PC, HI, LO, a CP0 register, an address, an instruction
(00_scope.md R7 `XLEN`, R10). -/
abbrev Word := BitVec 32

end Sys2Proof
end

