-- ==== Sys2Proof/Syntax.lean ====
section
/-! DEFINITION. The 76 instructions of 30_encoding.md R118, one constructor per row of spec/opcode_table.json.

A register number, a shift amount and a `sel` are indexes (Nat, bounded by `Instr.wellFormed`); immediates, jump fields
and software code fields are bits. A field the spec says an instruction ignores (R117) is no argument; the code fields of
SYSCALL, BREAK and the traps are, since the table names them, though the hardware does not read them. -/

namespace Sys2Proof

/-- One constructor per row of the opcode table; operands in the assembler's order of 30_encoding.md R131, a load's or
store's offset last. -/
inductive Instr where
  -- R-type arithmetic, logic, shifts, compares and conditional moves (41_rtype_alu.md)
  | add (rd rs rt : Nat)  -- ADD, R182
  | addu (rd rs rt : Nat)  -- ADDU, R183
  | sub (rd rs rt : Nat)  -- SUB, R184
  | subu (rd rs rt : Nat)  -- SUBU, R185
  | and (rd rs rt : Nat)  -- AND, R186
  | or (rd rs rt : Nat)  -- OR, R187
  | xor (rd rs rt : Nat)  -- XOR, R188
  | nor (rd rs rt : Nat)  -- NOR, R189
  | sll (rd rt shamt : Nat)  -- SLL, R192
  | srl (rd rt shamt : Nat)  -- SRL, R193
  | sra (rd rt shamt : Nat)  -- SRA, R194
  | sllv (rd rt rs : Nat)  -- SLLV, R195
  | srlv (rd rt rs : Nat)  -- SRLV, R196
  | srav (rd rt rs : Nat)  -- SRAV, R197
  | slt (rd rs rt : Nat)  -- SLT, R198
  | sltu (rd rs rt : Nat)  -- SLTU, R199
  | movn (rd rs rt : Nat)  -- MOVN, R200
  | movz (rd rs rt : Nat)  -- MOVZ, R201
  -- Multiply, divide and HI/LO moves (42_muldiv_hilo.md)
  | mult (rs rt : Nat)  -- MULT, R221
  | multu (rs rt : Nat)  -- MULTU, R222
  | div (rs rt : Nat)  -- DIV, R223
  | divu (rs rt : Nat)  -- DIVU, R224
  | mfhi (rd : Nat)  -- MFHI, R226
  | mflo (rd : Nat)  -- MFLO, R227
  | mthi (rs : Nat)  -- MTHI, R228
  | mtlo (rs : Nat)  -- MTLO, R229
  -- Conditional traps, SYSCALL, BREAK and SYNC (43_trap_system.md)
  | teq (rs rt : Nat) (code : BitVec 10)  -- TEQ, R241
  | tne (rs rt : Nat) (code : BitVec 10)  -- TNE, R242
  | tge (rs rt : Nat) (code : BitVec 10)  -- TGE, R243
  | tgeu (rs rt : Nat) (code : BitVec 10)  -- TGEU, R244
  | tlt (rs rt : Nat) (code : BitVec 10)  -- TLT, R245
  | tltu (rs rt : Nat) (code : BitVec 10)  -- TLTU, R246
  | syscall (code : BitVec 20)  -- SYSCALL, R250
  | brk (code : BitVec 20)  -- BREAK, R251
  | sync  -- SYNC, R252
  -- Immediate arithmetic, logic and compares (44_itype_alu.md)
  | addi (rt rs : Nat) (imm : BitVec 16)  -- ADDI, R261
  | addiu (rt rs : Nat) (imm : BitVec 16)  -- ADDIU, R262
  | andi (rt rs : Nat) (imm : BitVec 16)  -- ANDI, R263
  | ori (rt rs : Nat) (imm : BitVec 16)  -- ORI, R264
  | xori (rt rs : Nat) (imm : BitVec 16)  -- XORI, R265
  | slti (rt rs : Nat) (imm : BitVec 16)  -- SLTI, R266
  | sltiu (rt rs : Nat) (imm : BitVec 16)  -- SLTIU, R267
  | lui (rt : Nat) (imm : BitVec 16)  -- LUI, R268
  -- Loads and stores (45_load_store.md)
  | lw (rt base : Nat) (offset : BitVec 16)  -- LW, R282
  | lh (rt base : Nat) (offset : BitVec 16)  -- LH, R283
  | lhu (rt base : Nat) (offset : BitVec 16)  -- LHU, R284
  | lb (rt base : Nat) (offset : BitVec 16)  -- LB, R285
  | lbu (rt base : Nat) (offset : BitVec 16)  -- LBU, R286
  | sw (rt base : Nat) (offset : BitVec 16)  -- SW, R290
  | sh (rt base : Nat) (offset : BitVec 16)  -- SH, R291
  | sb (rt base : Nat) (offset : BitVec 16)  -- SB, R292
  | lwl (rt base : Nat) (offset : BitVec 16)  -- LWL, R296
  | lwr (rt base : Nat) (offset : BitVec 16)  -- LWR, R297
  | swl (rt base : Nat) (offset : BitVec 16)  -- SWL, R298
  | swr (rt base : Nat) (offset : BitVec 16)  -- SWR, R299
  | ll (rt base : Nat) (offset : BitVec 16)  -- LL, R300
  | sc (rt base : Nat) (offset : BitVec 16)  -- SC, R301
  -- Branches and jumps (46_branch_jump.md)
  | beq (rs rt : Nat) (offset : BitVec 16)  -- BEQ, R312
  | bne (rs rt : Nat) (offset : BitVec 16)  -- BNE, R313
  | blez (rs : Nat) (offset : BitVec 16)  -- BLEZ, R314
  | bgtz (rs : Nat) (offset : BitVec 16)  -- BGTZ, R315
  | bltz (rs : Nat) (offset : BitVec 16)  -- BLTZ, R316
  | bgez (rs : Nat) (offset : BitVec 16)  -- BGEZ, R317
  | bltzal (rs : Nat) (offset : BitVec 16)  -- BLTZAL, R318
  | bgezal (rs : Nat) (offset : BitVec 16)  -- BGEZAL, R319
  | j (target : BitVec 26)  -- J, R320
  | jal (target : BitVec 26)  -- JAL, R321
  | jr (rs : Nat)  -- JR, R322
  | jalr (rd rs : Nat)  -- JALR, R323
  -- COP0 instructions (47_cop0.md)
  | mfc0 (rt rd sel : Nat)  -- MFC0, R343
  | mtc0 (rt rd sel : Nat)  -- MTC0, R344
  | eret  -- ERET, R346
  | tlbp  -- TLBP, R352
  | tlbr  -- TLBR, R354
  | tlbwi  -- TLBWI, R356
  | tlbwr  -- TLBWR, R358
deriving DecidableEq, Repr

end Sys2Proof
end

