-- ==== Sys2Proof/WellFormed.lean ====
section
/-! DEFINITION. What a well-formed instruction is: every index fits the field that encodes it (30_encoding.md R112 to
R115, R123: 5-bit register numbers and shift amounts, 3-bit `sel`). Immediates carry their width in their type. -/

namespace Sys2Proof

/-- A register number fits a 5-bit field (30_encoding.md R123); a CP0 register number does too (10_state.md R30). -/
abbrev isReg (n : Nat) : Bool := decide (n < 32)

/-- A shift amount fits the 5-bit `shamt` field (30_encoding.md R112). -/
abbrev isShamt (n : Nat) : Bool := decide (n < 32)

/-- A `sel` fits instr[2:0] (30_encoding.md R115). -/
abbrev isSel (n : Nat) : Bool := decide (n < 8)

/-- Every index operand fits its field. -/
def Instr.wellFormed : Instr → Bool
  | .add rd rs rt => isReg rd && isReg rs && isReg rt
  | .addu rd rs rt => isReg rd && isReg rs && isReg rt
  | .sub rd rs rt => isReg rd && isReg rs && isReg rt
  | .subu rd rs rt => isReg rd && isReg rs && isReg rt
  | .and rd rs rt => isReg rd && isReg rs && isReg rt
  | .or rd rs rt => isReg rd && isReg rs && isReg rt
  | .xor rd rs rt => isReg rd && isReg rs && isReg rt
  | .nor rd rs rt => isReg rd && isReg rs && isReg rt
  | .sll rd rt shamt => isReg rd && isReg rt && isShamt shamt
  | .srl rd rt shamt => isReg rd && isReg rt && isShamt shamt
  | .sra rd rt shamt => isReg rd && isReg rt && isShamt shamt
  | .sllv rd rt rs => isReg rd && isReg rt && isReg rs
  | .srlv rd rt rs => isReg rd && isReg rt && isReg rs
  | .srav rd rt rs => isReg rd && isReg rt && isReg rs
  | .slt rd rs rt => isReg rd && isReg rs && isReg rt
  | .sltu rd rs rt => isReg rd && isReg rs && isReg rt
  | .movn rd rs rt => isReg rd && isReg rs && isReg rt
  | .movz rd rs rt => isReg rd && isReg rs && isReg rt
  | .mult rs rt => isReg rs && isReg rt
  | .multu rs rt => isReg rs && isReg rt
  | .div rs rt => isReg rs && isReg rt
  | .divu rs rt => isReg rs && isReg rt
  | .mfhi rd => isReg rd
  | .mflo rd => isReg rd
  | .mthi rs => isReg rs
  | .mtlo rs => isReg rs
  | .teq rs rt _ => isReg rs && isReg rt
  | .tne rs rt _ => isReg rs && isReg rt
  | .tge rs rt _ => isReg rs && isReg rt
  | .tgeu rs rt _ => isReg rs && isReg rt
  | .tlt rs rt _ => isReg rs && isReg rt
  | .tltu rs rt _ => isReg rs && isReg rt
  | .syscall _ => true
  | .brk _ => true
  | .sync => true
  | .addi rt rs _ => isReg rt && isReg rs
  | .addiu rt rs _ => isReg rt && isReg rs
  | .andi rt rs _ => isReg rt && isReg rs
  | .ori rt rs _ => isReg rt && isReg rs
  | .xori rt rs _ => isReg rt && isReg rs
  | .slti rt rs _ => isReg rt && isReg rs
  | .sltiu rt rs _ => isReg rt && isReg rs
  | .lui rt _ => isReg rt
  | .lw rt base _ => isReg rt && isReg base
  | .lh rt base _ => isReg rt && isReg base
  | .lhu rt base _ => isReg rt && isReg base
  | .lb rt base _ => isReg rt && isReg base
  | .lbu rt base _ => isReg rt && isReg base
  | .sw rt base _ => isReg rt && isReg base
  | .sh rt base _ => isReg rt && isReg base
  | .sb rt base _ => isReg rt && isReg base
  | .lwl rt base _ => isReg rt && isReg base
  | .lwr rt base _ => isReg rt && isReg base
  | .swl rt base _ => isReg rt && isReg base
  | .swr rt base _ => isReg rt && isReg base
  | .ll rt base _ => isReg rt && isReg base
  | .sc rt base _ => isReg rt && isReg base
  | .beq rs rt _ => isReg rs && isReg rt
  | .bne rs rt _ => isReg rs && isReg rt
  | .blez rs _ => isReg rs
  | .bgtz rs _ => isReg rs
  | .bltz rs _ => isReg rs
  | .bgez rs _ => isReg rs
  | .bltzal rs _ => isReg rs
  | .bgezal rs _ => isReg rs
  | .j _ => true
  | .jal _ => true
  | .jr rs => isReg rs
  | .jalr rd rs => isReg rd && isReg rs
  | .mfc0 rt rd sel => isReg rt && isReg rd && isSel sel
  | .mtc0 rt rd sel => isReg rt && isReg rd && isSel sel
  | .eret => true
  | .tlbp => true
  | .tlbr => true
  | .tlbwi => true
  | .tlbwr => true

end Sys2Proof
end

