-- ==== Sys2Proof/Decode.lean ====
section
/-! DEFINITION. The decoder, total on any bytes and rejecting by name, and after it the encoder, both from the encoding
tables of 30_encoding.md (R110 to R124). The opcode numbers marked "gk" there are the spec's own (log 17). -/

namespace Sys2Proof

/-! ### Fields (R110 to R115) -/

/-- `op = instr[31:26]` (R111). -/
def opOf (w : Word) : Nat := (w.extractLsb' 26 6).toNat
/-- `rs = instr[25:21]` (R112). -/
def rsOf (w : Word) : Nat := (w.extractLsb' 21 5).toNat
/-- `rt = instr[20:16]` (R112). -/
def rtOf (w : Word) : Nat := (w.extractLsb' 16 5).toNat
/-- `rd = instr[15:11]` (R112). -/
def rdOf (w : Word) : Nat := (w.extractLsb' 11 5).toNat
/-- `shamt = instr[10:6]` (R112). -/
def shamtOf (w : Word) : Nat := (w.extractLsb' 6 5).toNat
/-- `funct = instr[5:0]` (R112, R115). -/
def functOf (w : Word) : Nat := (w.extractLsb' 0 6).toNat
/-- `sel = instr[2:0]` (R115). -/
def selOf (w : Word) : Nat := (w.extractLsb' 0 3).toNat
/-- `imm = instr[15:0]` (R113). -/
def immOf (w : Word) : BitVec 16 := w.extractLsb' 0 16
/-- `addr = instr[25:0]` (R114). -/
def targetOf (w : Word) : BitVec 26 := w.extractLsb' 0 26
/-- The code field of SYSCALL and BREAK, instr[25:6], which the hardware does not read (43_trap_system.md R250, R251). -/
def sysCodeOf (w : Word) : BitVec 20 := w.extractLsb' 6 20
/-- The code field of the traps, instr[15:6], which the hardware does not read (43_trap_system.md R240). -/
def trapCodeOf (w : Word) : BitVec 10 := w.extractLsb' 6 10

/-- The word of four bytes, the first (at the lowest address) most significant (R110, 20_memory.md R82). -/
def wordOfBytes (b0 b1 b2 b3 : Byte) : Word := b0 ++ b1 ++ b2 ++ b3

/-- The four bytes of a word in memory order (R110, 20_memory.md R82). -/
def bytesOfWord (w : Word) : List Byte :=
  [w.extractLsb' 24 8, w.extractLsb' 16 8, w.extractLsb' 8 8, w.extractLsb' 0 8]

/-! ### Decoding -/

/-- Why a word or a byte string is no instruction. Every reason but `truncated` is a reserved encoding, which raises RI
when executed (R116, R124). -/
inductive Reject where
  /-- A major opcode that R120 does not list. -/
  | reservedOpcode (op : Nat)
  /-- op = 0x00 with a `funct` that R119 does not list. -/
  | reservedFunct (funct : Nat)
  /-- op = 0x01 with an `rt` that R121 does not list. -/
  | reservedRegimm (rt : Nat)
  /-- op = 0x10 with an `rs` that R122 does not list. -/
  | reservedCop0 (rs : Nat)
  /-- op = 0x10, rs = 0x10 with a `funct` that R122 does not list. -/
  | reservedCo (funct : Nat)
  /-- Fewer than four bytes: no instruction word (R110). -/
  | truncated
deriving DecidableEq, Repr

/-- R-type words, op = 0x00, by `funct` (R119). -/
def decodeSpecial (w : Word) : Except Reject Instr :=
  match functOf w with
  | 0x00 => .ok (.sll (rdOf w) (rtOf w) (shamtOf w))
  | 0x02 => .ok (.srl (rdOf w) (rtOf w) (shamtOf w))
  | 0x03 => .ok (.sra (rdOf w) (rtOf w) (shamtOf w))
  | 0x04 => .ok (.sllv (rdOf w) (rtOf w) (rsOf w))
  | 0x06 => .ok (.srlv (rdOf w) (rtOf w) (rsOf w))
  | 0x07 => .ok (.srav (rdOf w) (rtOf w) (rsOf w))
  | 0x08 => .ok (.jr (rsOf w))
  | 0x09 => .ok (.jalr (rdOf w) (rsOf w))
  | 0x0A => .ok (.movz (rdOf w) (rsOf w) (rtOf w))
  | 0x0B => .ok (.movn (rdOf w) (rsOf w) (rtOf w))
  | 0x0C => .ok (.syscall (sysCodeOf w))
  | 0x0D => .ok (.brk (sysCodeOf w))
  | 0x0F => .ok (.sync)
  | 0x10 => .ok (.mfhi (rdOf w))
  | 0x11 => .ok (.mthi (rsOf w))
  | 0x12 => .ok (.mflo (rdOf w))
  | 0x13 => .ok (.mtlo (rsOf w))
  | 0x18 => .ok (.mult (rsOf w) (rtOf w))
  | 0x19 => .ok (.multu (rsOf w) (rtOf w))
  | 0x1A => .ok (.div (rsOf w) (rtOf w))
  | 0x1B => .ok (.divu (rsOf w) (rtOf w))
  | 0x20 => .ok (.add (rdOf w) (rsOf w) (rtOf w))
  | 0x21 => .ok (.addu (rdOf w) (rsOf w) (rtOf w))
  | 0x22 => .ok (.sub (rdOf w) (rsOf w) (rtOf w))
  | 0x23 => .ok (.subu (rdOf w) (rsOf w) (rtOf w))
  | 0x24 => .ok (.and (rdOf w) (rsOf w) (rtOf w))
  | 0x25 => .ok (.or (rdOf w) (rsOf w) (rtOf w))
  | 0x26 => .ok (.xor (rdOf w) (rsOf w) (rtOf w))
  | 0x27 => .ok (.nor (rdOf w) (rsOf w) (rtOf w))
  | 0x2A => .ok (.slt (rdOf w) (rsOf w) (rtOf w))
  | 0x2B => .ok (.sltu (rdOf w) (rsOf w) (rtOf w))
  | 0x30 => .ok (.tge (rsOf w) (rtOf w) (trapCodeOf w))
  | 0x31 => .ok (.tgeu (rsOf w) (rtOf w) (trapCodeOf w))
  | 0x32 => .ok (.tlt (rsOf w) (rtOf w) (trapCodeOf w))
  | 0x33 => .ok (.tltu (rsOf w) (rtOf w) (trapCodeOf w))
  | 0x34 => .ok (.teq (rsOf w) (rtOf w) (trapCodeOf w))
  | 0x36 => .ok (.tne (rsOf w) (rtOf w) (trapCodeOf w))
  | f => .error (.reservedFunct f)

/-- REGIMM words, op = 0x01, by `rt` (R121). -/
def decodeRegimm (w : Word) : Except Reject Instr :=
  match rtOf w with
  | 0x00 => .ok (.bltz (rsOf w) (immOf w))
  | 0x01 => .ok (.bgez (rsOf w) (immOf w))
  | 0x10 => .ok (.bltzal (rsOf w) (immOf w))
  | 0x11 => .ok (.bgezal (rsOf w) (immOf w))
  | r => .error (.reservedRegimm r)

/-- CO words, op = 0x10 and rs = 0x10 exactly, by `funct` (R122). -/
def decodeCo (w : Word) : Except Reject Instr :=
  match functOf w with
  | 0x01 => .ok .tlbr
  | 0x02 => .ok .tlbwi
  | 0x06 => .ok .tlbwr
  | 0x08 => .ok .tlbp
  | 0x18 => .ok .eret
  | f => .error (.reservedCo f)

/-- COP0 words, op = 0x10, by `rs` (R122). -/
def decodeCop0 (w : Word) : Except Reject Instr :=
  match rsOf w with
  | 0x00 => .ok (.mfc0 (rtOf w) (rdOf w) (selOf w))
  | 0x04 => .ok (.mtc0 (rtOf w) (rdOf w) (selOf w))
  | 0x10 => decodeCo w
  | r => .error (.reservedCop0 r)

/-- The decoder on a word, by major opcode (R111, R116, R120): pure and total. -/
def decodeWord (w : Word) : Except Reject Instr :=
  match opOf w with
  | 0x00 => decodeSpecial w
  | 0x01 => decodeRegimm w
  | 0x02 => .ok (.j (targetOf w))
  | 0x03 => .ok (.jal (targetOf w))
  | 0x04 => .ok (.beq (rsOf w) (rtOf w) (immOf w))
  | 0x05 => .ok (.bne (rsOf w) (rtOf w) (immOf w))
  | 0x06 => .ok (.blez (rsOf w) (immOf w))
  | 0x07 => .ok (.bgtz (rsOf w) (immOf w))
  | 0x08 => .ok (.addi (rtOf w) (rsOf w) (immOf w))
  | 0x09 => .ok (.addiu (rtOf w) (rsOf w) (immOf w))
  | 0x0A => .ok (.slti (rtOf w) (rsOf w) (immOf w))
  | 0x0B => .ok (.sltiu (rtOf w) (rsOf w) (immOf w))
  | 0x0C => .ok (.andi (rtOf w) (rsOf w) (immOf w))
  | 0x0D => .ok (.ori (rtOf w) (rsOf w) (immOf w))
  | 0x0E => .ok (.xori (rtOf w) (rsOf w) (immOf w))
  | 0x0F => .ok (.lui (rtOf w) (immOf w))
  | 0x10 => decodeCop0 w
  | 0x20 => .ok (.lb (rtOf w) (rsOf w) (immOf w))
  | 0x21 => .ok (.lh (rtOf w) (rsOf w) (immOf w))
  | 0x22 => .ok (.lwl (rtOf w) (rsOf w) (immOf w))
  | 0x23 => .ok (.lw (rtOf w) (rsOf w) (immOf w))
  | 0x24 => .ok (.lbu (rtOf w) (rsOf w) (immOf w))
  | 0x25 => .ok (.lhu (rtOf w) (rsOf w) (immOf w))
  | 0x26 => .ok (.lwr (rtOf w) (rsOf w) (immOf w))
  | 0x28 => .ok (.sb (rtOf w) (rsOf w) (immOf w))
  | 0x29 => .ok (.sh (rtOf w) (rsOf w) (immOf w))
  | 0x2A => .ok (.swl (rtOf w) (rsOf w) (immOf w))
  | 0x2B => .ok (.sw (rtOf w) (rsOf w) (immOf w))
  | 0x2E => .ok (.swr (rtOf w) (rsOf w) (immOf w))
  | 0x30 => .ok (.ll (rtOf w) (rsOf w) (immOf w))
  | 0x38 => .ok (.sc (rtOf w) (rsOf w) (immOf w))
  | o => .error (.reservedOpcode o)

/-- The decoder on bytes, first byte at the lowest address: the instruction and the bytes after its word (R110). -/
def decode : List Byte → Except Reject (Instr × List Byte)
  | b0 :: b1 :: b2 :: b3 :: rest =>
    match decodeWord (wordOfBytes b0 b1 b2 b3) with
    | .ok i => .ok (i, rest)
    | .error e => .error e
  | _ => .error .truncated

/-- The instruction word whose low `nbits` bits are `w`, every bit above them 0. -/
def tableWord (nbits w : Nat) : Word := BitVec.ofNat 32 (w % 2 ^ nbits)

/-- What the decoder reads from the instruction whose bits are `w`, numbered as spec/opcode_table.json numbers them. -/
def decodeTableWord (nbits w : Nat) : Option Instr :=
  match decode (bytesOfWord (tableWord nbits w)) with
  | .ok (i, _) => some i
  | .error _ => none

/-! ### Encoding: fields an instruction ignores are encoded 0 (log 12) -/

/-- An R-type word (R112). -/
def encodeR (rs rt rd shamt funct : Nat) : Word :=
  0#6 ++ BitVec.ofNat 5 rs ++ BitVec.ofNat 5 rt ++ BitVec.ofNat 5 rd ++ BitVec.ofNat 5 shamt ++ BitVec.ofNat 6 funct

/-- A conditional trap's word, with its code field (43_trap_system.md R240). -/
def encodeTrap (rs rt : Nat) (code : BitVec 10) (funct : Nat) : Word :=
  0#6 ++ BitVec.ofNat 5 rs ++ BitVec.ofNat 5 rt ++ code ++ BitVec.ofNat 6 funct

/-- SYSCALL's or BREAK's word, with its code field (43_trap_system.md R250, R251). -/
def encodeSys (code : BitVec 20) (funct : Nat) : Word := 0#6 ++ code ++ BitVec.ofNat 6 funct

/-- An I-type word (R113); REGIMM's sub-opcode stands in `rt`. -/
def encodeI (op rs rt : Nat) (imm : BitVec 16) : Word :=
  BitVec.ofNat 6 op ++ BitVec.ofNat 5 rs ++ BitVec.ofNat 5 rt ++ imm

/-- A J-type word (R114). -/
def encodeJ (op : Nat) (target : BitVec 26) : Word := BitVec.ofNat 6 op ++ target

/-- An MFC0 or MTC0 word (R115). -/
def encodeMoveC0 (rs rt rd sel : Nat) : Word :=
  BitVec.ofNat 6 0x10 ++ BitVec.ofNat 5 rs ++ BitVec.ofNat 5 rt ++ BitVec.ofNat 5 rd ++ 0#8 ++ BitVec.ofNat 3 sel

/-- A CO word (R115). -/
def encodeCo (funct : Nat) : Word := BitVec.ofNat 6 0x10 ++ BitVec.ofNat 5 0x10 ++ 0#15 ++ BitVec.ofNat 6 funct

/-- The word of an instruction, from R119 to R122. -/
def encode : Instr → Word
  | .add rd rs rt => encodeR rs rt rd 0 0x20
  | .addu rd rs rt => encodeR rs rt rd 0 0x21
  | .sub rd rs rt => encodeR rs rt rd 0 0x22
  | .subu rd rs rt => encodeR rs rt rd 0 0x23
  | .and rd rs rt => encodeR rs rt rd 0 0x24
  | .or rd rs rt => encodeR rs rt rd 0 0x25
  | .xor rd rs rt => encodeR rs rt rd 0 0x26
  | .nor rd rs rt => encodeR rs rt rd 0 0x27
  | .sll rd rt shamt => encodeR 0 rt rd shamt 0x00
  | .srl rd rt shamt => encodeR 0 rt rd shamt 0x02
  | .sra rd rt shamt => encodeR 0 rt rd shamt 0x03
  | .sllv rd rt rs => encodeR rs rt rd 0 0x04
  | .srlv rd rt rs => encodeR rs rt rd 0 0x06
  | .srav rd rt rs => encodeR rs rt rd 0 0x07
  | .slt rd rs rt => encodeR rs rt rd 0 0x2A
  | .sltu rd rs rt => encodeR rs rt rd 0 0x2B
  | .movn rd rs rt => encodeR rs rt rd 0 0x0B
  | .movz rd rs rt => encodeR rs rt rd 0 0x0A
  | .mult rs rt => encodeR rs rt 0 0 0x18
  | .multu rs rt => encodeR rs rt 0 0 0x19
  | .div rs rt => encodeR rs rt 0 0 0x1A
  | .divu rs rt => encodeR rs rt 0 0 0x1B
  | .mfhi rd => encodeR 0 0 rd 0 0x10
  | .mflo rd => encodeR 0 0 rd 0 0x12
  | .mthi rs => encodeR rs 0 0 0 0x11
  | .mtlo rs => encodeR rs 0 0 0 0x13
  | .teq rs rt code => encodeTrap rs rt code 0x34
  | .tne rs rt code => encodeTrap rs rt code 0x36
  | .tge rs rt code => encodeTrap rs rt code 0x30
  | .tgeu rs rt code => encodeTrap rs rt code 0x31
  | .tlt rs rt code => encodeTrap rs rt code 0x32
  | .tltu rs rt code => encodeTrap rs rt code 0x33
  | .syscall code => encodeSys code 0x0C
  | .brk code => encodeSys code 0x0D
  | .sync => encodeR 0 0 0 0 0x0F
  | .addi rt rs imm => encodeI 0x08 rs rt imm
  | .addiu rt rs imm => encodeI 0x09 rs rt imm
  | .andi rt rs imm => encodeI 0x0C rs rt imm
  | .ori rt rs imm => encodeI 0x0D rs rt imm
  | .xori rt rs imm => encodeI 0x0E rs rt imm
  | .slti rt rs imm => encodeI 0x0A rs rt imm
  | .sltiu rt rs imm => encodeI 0x0B rs rt imm
  | .lui rt imm => encodeI 0x0F 0 rt imm
  | .lw rt base offset => encodeI 0x23 base rt offset
  | .lh rt base offset => encodeI 0x21 base rt offset
  | .lhu rt base offset => encodeI 0x25 base rt offset
  | .lb rt base offset => encodeI 0x20 base rt offset
  | .lbu rt base offset => encodeI 0x24 base rt offset
  | .sw rt base offset => encodeI 0x2B base rt offset
  | .sh rt base offset => encodeI 0x29 base rt offset
  | .sb rt base offset => encodeI 0x28 base rt offset
  | .lwl rt base offset => encodeI 0x22 base rt offset
  | .lwr rt base offset => encodeI 0x26 base rt offset
  | .swl rt base offset => encodeI 0x2A base rt offset
  | .swr rt base offset => encodeI 0x2E base rt offset
  | .ll rt base offset => encodeI 0x30 base rt offset
  | .sc rt base offset => encodeI 0x38 base rt offset
  | .beq rs rt offset => encodeI 0x04 rs rt offset
  | .bne rs rt offset => encodeI 0x05 rs rt offset
  | .blez rs offset => encodeI 0x06 rs 0 offset
  | .bgtz rs offset => encodeI 0x07 rs 0 offset
  | .bltz rs offset => encodeI 0x01 rs 0x00 offset
  | .bgez rs offset => encodeI 0x01 rs 0x01 offset
  | .bltzal rs offset => encodeI 0x01 rs 0x10 offset
  | .bgezal rs offset => encodeI 0x01 rs 0x11 offset
  | .j target => encodeJ 0x02 target
  | .jal target => encodeJ 0x03 target
  | .jr rs => encodeR rs 0 0 0 0x08
  | .jalr rd rs => encodeR rs 0 rd 0 0x09
  | .mfc0 rt rd sel => encodeMoveC0 0x00 rt rd sel
  | .mtc0 rt rd sel => encodeMoveC0 0x04 rt rd sel
  | .eret => encodeCo 0x18
  | .tlbp => encodeCo 0x08
  | .tlbr => encodeCo 0x01
  | .tlbwi => encodeCo 0x02
  | .tlbwr => encodeCo 0x06

/-- The four bytes of an instruction in memory order. -/
def encodeBytes (i : Instr) : List Byte := bytesOfWord (encode i)

/-! ### The rows of spec/opcode_table.json, bit by bit (R117: "`match` and `mask` … say the same thing bit by bit") -/

/-- A row of the opcode table: the bits that select it and their values. -/
structure OpcodeRow where
  mask : Word
  value : Word
deriving DecidableEq, Repr

/-- The row of an instruction, as the table gives it. -/
def Instr.row : Instr → OpcodeRow
  | .add _ _ _ => ⟨0xFC00003F, 0x00000020⟩
  | .addu _ _ _ => ⟨0xFC00003F, 0x00000021⟩
  | .sub _ _ _ => ⟨0xFC00003F, 0x00000022⟩
  | .subu _ _ _ => ⟨0xFC00003F, 0x00000023⟩
  | .and _ _ _ => ⟨0xFC00003F, 0x00000024⟩
  | .or _ _ _ => ⟨0xFC00003F, 0x00000025⟩
  | .xor _ _ _ => ⟨0xFC00003F, 0x00000026⟩
  | .nor _ _ _ => ⟨0xFC00003F, 0x00000027⟩
  | .sll _ _ _ => ⟨0xFC00003F, 0x00000000⟩
  | .srl _ _ _ => ⟨0xFC00003F, 0x00000002⟩
  | .sra _ _ _ => ⟨0xFC00003F, 0x00000003⟩
  | .sllv _ _ _ => ⟨0xFC00003F, 0x00000004⟩
  | .srlv _ _ _ => ⟨0xFC00003F, 0x00000006⟩
  | .srav _ _ _ => ⟨0xFC00003F, 0x00000007⟩
  | .slt _ _ _ => ⟨0xFC00003F, 0x0000002A⟩
  | .sltu _ _ _ => ⟨0xFC00003F, 0x0000002B⟩
  | .movn _ _ _ => ⟨0xFC00003F, 0x0000000B⟩
  | .movz _ _ _ => ⟨0xFC00003F, 0x0000000A⟩
  | .mult _ _ => ⟨0xFC00003F, 0x00000018⟩
  | .multu _ _ => ⟨0xFC00003F, 0x00000019⟩
  | .div _ _ => ⟨0xFC00003F, 0x0000001A⟩
  | .divu _ _ => ⟨0xFC00003F, 0x0000001B⟩
  | .mfhi _ => ⟨0xFC00003F, 0x00000010⟩
  | .mflo _ => ⟨0xFC00003F, 0x00000012⟩
  | .mthi _ => ⟨0xFC00003F, 0x00000011⟩
  | .mtlo _ => ⟨0xFC00003F, 0x00000013⟩
  | .teq _ _ _ => ⟨0xFC00003F, 0x00000034⟩
  | .tne _ _ _ => ⟨0xFC00003F, 0x00000036⟩
  | .tge _ _ _ => ⟨0xFC00003F, 0x00000030⟩
  | .tgeu _ _ _ => ⟨0xFC00003F, 0x00000031⟩
  | .tlt _ _ _ => ⟨0xFC00003F, 0x00000032⟩
  | .tltu _ _ _ => ⟨0xFC00003F, 0x00000033⟩
  | .syscall _ => ⟨0xFC00003F, 0x0000000C⟩
  | .brk _ => ⟨0xFC00003F, 0x0000000D⟩
  | .sync => ⟨0xFC00003F, 0x0000000F⟩
  | .addi _ _ _ => ⟨0xFC000000, 0x20000000⟩
  | .addiu _ _ _ => ⟨0xFC000000, 0x24000000⟩
  | .andi _ _ _ => ⟨0xFC000000, 0x30000000⟩
  | .ori _ _ _ => ⟨0xFC000000, 0x34000000⟩
  | .xori _ _ _ => ⟨0xFC000000, 0x38000000⟩
  | .slti _ _ _ => ⟨0xFC000000, 0x28000000⟩
  | .sltiu _ _ _ => ⟨0xFC000000, 0x2C000000⟩
  | .lui _ _ => ⟨0xFC000000, 0x3C000000⟩
  | .lw _ _ _ => ⟨0xFC000000, 0x8C000000⟩
  | .lh _ _ _ => ⟨0xFC000000, 0x84000000⟩
  | .lhu _ _ _ => ⟨0xFC000000, 0x94000000⟩
  | .lb _ _ _ => ⟨0xFC000000, 0x80000000⟩
  | .lbu _ _ _ => ⟨0xFC000000, 0x90000000⟩
  | .sw _ _ _ => ⟨0xFC000000, 0xAC000000⟩
  | .sh _ _ _ => ⟨0xFC000000, 0xA4000000⟩
  | .sb _ _ _ => ⟨0xFC000000, 0xA0000000⟩
  | .lwl _ _ _ => ⟨0xFC000000, 0x88000000⟩
  | .lwr _ _ _ => ⟨0xFC000000, 0x98000000⟩
  | .swl _ _ _ => ⟨0xFC000000, 0xA8000000⟩
  | .swr _ _ _ => ⟨0xFC000000, 0xB8000000⟩
  | .ll _ _ _ => ⟨0xFC000000, 0xC0000000⟩
  | .sc _ _ _ => ⟨0xFC000000, 0xE0000000⟩
  | .beq _ _ _ => ⟨0xFC000000, 0x10000000⟩
  | .bne _ _ _ => ⟨0xFC000000, 0x14000000⟩
  | .blez _ _ => ⟨0xFC000000, 0x18000000⟩
  | .bgtz _ _ => ⟨0xFC000000, 0x1C000000⟩
  | .bltz _ _ => ⟨0xFC1F0000, 0x04000000⟩
  | .bgez _ _ => ⟨0xFC1F0000, 0x04010000⟩
  | .bltzal _ _ => ⟨0xFC1F0000, 0x04100000⟩
  | .bgezal _ _ => ⟨0xFC1F0000, 0x04110000⟩
  | .j _ => ⟨0xFC000000, 0x08000000⟩
  | .jal _ => ⟨0xFC000000, 0x0C000000⟩
  | .jr _ => ⟨0xFC00003F, 0x00000008⟩
  | .jalr _ _ => ⟨0xFC00003F, 0x00000009⟩
  | .mfc0 _ _ _ => ⟨0xFFE00000, 0x40000000⟩
  | .mtc0 _ _ _ => ⟨0xFFE00000, 0x40800000⟩
  | .eret => ⟨0xFFE0003F, 0x42000018⟩
  | .tlbp => ⟨0xFFE0003F, 0x42000008⟩
  | .tlbr => ⟨0xFFE0003F, 0x42000001⟩
  | .tlbwi => ⟨0xFFE0003F, 0x42000002⟩
  | .tlbwr => ⟨0xFFE0003F, 0x42000006⟩

/-- The bits of a word that hold an instruction's operands; the others are its row's mask and the ignored bits (R117). -/
def Instr.operandMask : Instr → Word
  | .add _ _ _ => 0x03FFF800
  | .addu _ _ _ => 0x03FFF800
  | .sub _ _ _ => 0x03FFF800
  | .subu _ _ _ => 0x03FFF800
  | .and _ _ _ => 0x03FFF800
  | .or _ _ _ => 0x03FFF800
  | .xor _ _ _ => 0x03FFF800
  | .nor _ _ _ => 0x03FFF800
  | .sll _ _ _ => 0x001FFFC0
  | .srl _ _ _ => 0x001FFFC0
  | .sra _ _ _ => 0x001FFFC0
  | .sllv _ _ _ => 0x03FFF800
  | .srlv _ _ _ => 0x03FFF800
  | .srav _ _ _ => 0x03FFF800
  | .slt _ _ _ => 0x03FFF800
  | .sltu _ _ _ => 0x03FFF800
  | .movn _ _ _ => 0x03FFF800
  | .movz _ _ _ => 0x03FFF800
  | .mult _ _ => 0x03FF0000
  | .multu _ _ => 0x03FF0000
  | .div _ _ => 0x03FF0000
  | .divu _ _ => 0x03FF0000
  | .mfhi _ => 0x0000F800
  | .mflo _ => 0x0000F800
  | .mthi _ => 0x03E00000
  | .mtlo _ => 0x03E00000
  | .teq _ _ _ => 0x03FFFFC0
  | .tne _ _ _ => 0x03FFFFC0
  | .tge _ _ _ => 0x03FFFFC0
  | .tgeu _ _ _ => 0x03FFFFC0
  | .tlt _ _ _ => 0x03FFFFC0
  | .tltu _ _ _ => 0x03FFFFC0
  | .syscall _ => 0x03FFFFC0
  | .brk _ => 0x03FFFFC0
  | .sync => 0x00000000
  | .addi _ _ _ => 0x03FFFFFF
  | .addiu _ _ _ => 0x03FFFFFF
  | .andi _ _ _ => 0x03FFFFFF
  | .ori _ _ _ => 0x03FFFFFF
  | .xori _ _ _ => 0x03FFFFFF
  | .slti _ _ _ => 0x03FFFFFF
  | .sltiu _ _ _ => 0x03FFFFFF
  | .lui _ _ => 0x001FFFFF
  | .lw _ _ _ => 0x03FFFFFF
  | .lh _ _ _ => 0x03FFFFFF
  | .lhu _ _ _ => 0x03FFFFFF
  | .lb _ _ _ => 0x03FFFFFF
  | .lbu _ _ _ => 0x03FFFFFF
  | .sw _ _ _ => 0x03FFFFFF
  | .sh _ _ _ => 0x03FFFFFF
  | .sb _ _ _ => 0x03FFFFFF
  | .lwl _ _ _ => 0x03FFFFFF
  | .lwr _ _ _ => 0x03FFFFFF
  | .swl _ _ _ => 0x03FFFFFF
  | .swr _ _ _ => 0x03FFFFFF
  | .ll _ _ _ => 0x03FFFFFF
  | .sc _ _ _ => 0x03FFFFFF
  | .beq _ _ _ => 0x03FFFFFF
  | .bne _ _ _ => 0x03FFFFFF
  | .blez _ _ => 0x03E0FFFF
  | .bgtz _ _ => 0x03E0FFFF
  | .bltz _ _ => 0x03E0FFFF
  | .bgez _ _ => 0x03E0FFFF
  | .bltzal _ _ => 0x03E0FFFF
  | .bgezal _ _ => 0x03E0FFFF
  | .j _ => 0x03FFFFFF
  | .jal _ => 0x03FFFFFF
  | .jr _ => 0x03E00000
  | .jalr _ _ => 0x03E0F800
  | .mfc0 _ _ _ => 0x001FF807
  | .mtc0 _ _ _ => 0x001FF807
  | .eret => 0x00000000
  | .tlbp => 0x00000000
  | .tlbr => 0x00000000
  | .tlbwi => 0x00000000
  | .tlbwr => 0x00000000

/-- The 76 rows of the table, in its order: R-type (R119). -/
def opcodeRowsSpecial : List OpcodeRow := [
  ⟨0xFC00003F, 0x00000000⟩, ⟨0xFC00003F, 0x00000002⟩, ⟨0xFC00003F, 0x00000003⟩, ⟨0xFC00003F, 0x00000004⟩,
  ⟨0xFC00003F, 0x00000006⟩, ⟨0xFC00003F, 0x00000007⟩, ⟨0xFC00003F, 0x00000008⟩, ⟨0xFC00003F, 0x00000009⟩,
  ⟨0xFC00003F, 0x0000000A⟩, ⟨0xFC00003F, 0x0000000B⟩, ⟨0xFC00003F, 0x0000000C⟩, ⟨0xFC00003F, 0x0000000D⟩,
  ⟨0xFC00003F, 0x0000000F⟩, ⟨0xFC00003F, 0x00000010⟩, ⟨0xFC00003F, 0x00000011⟩, ⟨0xFC00003F, 0x00000012⟩,
  ⟨0xFC00003F, 0x00000013⟩, ⟨0xFC00003F, 0x00000018⟩, ⟨0xFC00003F, 0x00000019⟩, ⟨0xFC00003F, 0x0000001A⟩,
  ⟨0xFC00003F, 0x0000001B⟩, ⟨0xFC00003F, 0x00000020⟩, ⟨0xFC00003F, 0x00000021⟩, ⟨0xFC00003F, 0x00000022⟩,
  ⟨0xFC00003F, 0x00000023⟩, ⟨0xFC00003F, 0x00000024⟩, ⟨0xFC00003F, 0x00000025⟩, ⟨0xFC00003F, 0x00000026⟩,
  ⟨0xFC00003F, 0x00000027⟩, ⟨0xFC00003F, 0x0000002A⟩, ⟨0xFC00003F, 0x0000002B⟩, ⟨0xFC00003F, 0x00000030⟩,
  ⟨0xFC00003F, 0x00000031⟩, ⟨0xFC00003F, 0x00000032⟩, ⟨0xFC00003F, 0x00000033⟩, ⟨0xFC00003F, 0x00000034⟩,
  ⟨0xFC00003F, 0x00000036⟩]

/-- J- and I-type rows, REGIMM among them (R120, R121). -/
def opcodeRowsMajor : List OpcodeRow := [
  ⟨0xFC000000, 0x08000000⟩, ⟨0xFC000000, 0x0C000000⟩, ⟨0xFC000000, 0x10000000⟩, ⟨0xFC000000, 0x14000000⟩,
  ⟨0xFC000000, 0x18000000⟩, ⟨0xFC000000, 0x1C000000⟩, ⟨0xFC000000, 0x20000000⟩, ⟨0xFC000000, 0x24000000⟩,
  ⟨0xFC000000, 0x28000000⟩, ⟨0xFC000000, 0x2C000000⟩, ⟨0xFC000000, 0x30000000⟩, ⟨0xFC000000, 0x34000000⟩,
  ⟨0xFC000000, 0x38000000⟩, ⟨0xFC000000, 0x3C000000⟩, ⟨0xFC000000, 0x80000000⟩, ⟨0xFC000000, 0x84000000⟩,
  ⟨0xFC000000, 0x88000000⟩, ⟨0xFC000000, 0x8C000000⟩, ⟨0xFC000000, 0x90000000⟩, ⟨0xFC000000, 0x94000000⟩,
  ⟨0xFC000000, 0x98000000⟩, ⟨0xFC000000, 0xA0000000⟩, ⟨0xFC000000, 0xA4000000⟩, ⟨0xFC000000, 0xA8000000⟩,
  ⟨0xFC000000, 0xAC000000⟩, ⟨0xFC000000, 0xB8000000⟩, ⟨0xFC000000, 0xC0000000⟩, ⟨0xFC000000, 0xE0000000⟩,
  ⟨0xFC1F0000, 0x04000000⟩, ⟨0xFC1F0000, 0x04010000⟩, ⟨0xFC1F0000, 0x04100000⟩, ⟨0xFC1F0000, 0x04110000⟩]

/-- COP0 rows (R122). -/
def opcodeRowsCop0 : List OpcodeRow := [
  ⟨0xFFE00000, 0x40000000⟩, ⟨0xFFE00000, 0x40800000⟩, ⟨0xFFE0003F, 0x42000001⟩, ⟨0xFFE0003F, 0x42000002⟩,
  ⟨0xFFE0003F, 0x42000006⟩, ⟨0xFFE0003F, 0x42000008⟩, ⟨0xFFE0003F, 0x42000018⟩]

/-- All rows. -/
def opcodeRows : List OpcodeRow := opcodeRowsSpecial ++ opcodeRowsMajor ++ opcodeRowsCop0

end Sys2Proof
end

