-- ==== Sys2Proof/Config.lean ====
section
/-! DEFINITION. The parameters of the block (00_scope.md R7) and the exception codes one of them is a set of.
They are fixed for a machine; `Machine.State` carries them in its field `cfg`, which nothing changes (log 1). -/

namespace Sys2Proof

/-- The exceptions of 60_exceptions.md R380, by name. `mod`, `tlbl`, `tlbs` and `cpu` are named there and never
raised (R381); they are here because `HALT_CODES` names them. -/
inductive ExcCode where
  | int | mod | tlbl | tlbs | adel | ades | sys | bp | ri | cpu | ov | tr
deriving DecidableEq, Repr

/-- `UNALIGNED_LS`: whether LWL, LWR, SWL and SWR are no-operation stubs (45_load_store.md R294) or carry the MIPS32
meaning (R295). -/
inductive UnalignedLs where
  | stub
  | full
deriving DecidableEq, Repr

/-- The parameters of 00_scope.md R7. `memInit` is `MEM_INIT` in the form `Machine.Memory` has. -/
structure Config where
  memSize : Nat
  tlbSize : Nat
  entryPc : Word
  memInit : List Host.Cell
  pridValue : Word
  config0Reset : Word
  config1Value : Word
  haltCodes : List ExcCode
  unalignedLs : UnalignedLs
deriving DecidableEq, Repr

/-- The defaults of 00_scope.md R7. R7 gives `MEM_SIZE` no default ("host supplies"): 2^32, the whole 32-bit address
space, is a DESIGN CHOICE (log 2, unsafe: a statement about `State.reset` may rest on it). -/
def Config.default : Config where
  memSize := 2 ^ 32
  tlbSize := 16
  entryPc := 0
  memInit := []
  pridValue := 0
  config0Reset := 0x80000000
  config1Value := 0
  haltCodes := [.mod, .tlbl, .tlbs, .adel, .ades, .bp, .ri, .cpu, .ov, .tr]
  unalignedLs := .stub

end Sys2Proof
end

