-- ==== Sys2Proof/Machine/State.lean ====
section
/-! DEFINITION. The state of the block, all that 10_state.md R20 says it is, as plain data; the reasons a step can stop;
the state after reset (10_state.md R75, 70_reset_and_hazards.md R431 to R434). -/

namespace Sys2Proof.Machine

/-- Memory: (address, byte) pairs at strictly rising addresses, none holding the byte an unlisted address reads as
(20_memory.md R80; canonical form `Memory.wf` in Machine/Ops.lean). -/
abbrev Memory := List Host.Cell

/-- The CP0 registers, 10_state.md R33 (rules R34 to R55), each under its name. -/
structure Cp0 where
  index : Word
  random : Word
  entryLo0 : Word
  entryLo1 : Word
  context : Word
  pageMask : Word
  wired : Word
  badVAddr : Word
  count : Word
  entryHi : Word
  compare : Word
  status : Word
  cause : Word
  epc : Word
  prid : Word
  ebase : Word
  config0 : Word
  config1 : Word
  llAddr : Word
  watchLo : Word
  watchHi : Word
  xContext : Word
  errorEpc : Word
deriving DecidableEq, Repr

/-- A TLB entry (10_state.md R60). -/
structure TlbEntry where
  vpn2 : BitVec 19
  asid : BitVec 8
  g : Bool
  mask : BitVec 12
  pfn0 : BitVec 20
  c0 : BitVec 3
  d0 : Bool
  v0 : Bool
  pfn1 : BitVec 20
  c1 : BitVec 3
  d1 : Bool
  v1 : Bool
deriving DecidableEq, Repr

/-- The entry all of whose fields are 0 (70_reset_and_hazards.md R433). -/
def TlbEntry.zero : TlbEntry where
  vpn2 := 0
  asid := 0
  g := false
  mask := 0
  pfn0 := 0
  c0 := 0
  d0 := false
  v0 := false
  pfn1 := 0
  c1 := 0
  d1 := false
  v1 := false

/-- The state of the block (10_state.md R20), and the parameters of this machine (`cfg`, constant, log 1). -/
structure State where
  /-- `GPR[0..31]` (R21); slot 0 is never read and never written (log 16). -/
  gpr : Vector Word 32
  /-- `PC` (R23). -/
  pc : Word
  /-- `HI` (R24). -/
  hi : Word
  /-- `LO` (R24). -/
  lo : Word
  /-- `in_delay` (R25). -/
  inDelay : Bool
  /-- `branch_target` (R26), meaningful only while `inDelay` holds (log 7). -/
  branchTarget : Word
  /-- `running` (R27). -/
  running : Bool
  /-- The CP0 registers (R33). -/
  cp0 : Cp0
  /-- `TLB[0 .. TLB_SIZE-1]` (R60), entry 0 first; the list's length is `cfg.tlbSize` in every reachable state. -/
  tlb : List TlbEntry
  /-- `Mem[0 .. MEM_SIZE-1]` (20_memory.md R80). -/
  mem : Memory
  /-- The parameters of 00_scope.md R7; not state of the block: nothing changes them (log 1). -/
  cfg : Config
deriving DecidableEq, Repr

/-- What stops the machine with a fault. No step does: every exception of the block is taken, as a next state. -/
inductive Fault where
  /-- Raised by the host's loader action alone (`loadImage`, 70_reset_and_hazards.md R438), for an image that does not
  fit below MEM_SIZE; `step` never raises it. Safe: the spec gives such a load no effect (log 11). -/
  | imageOutsideMemory
deriving DecidableEq, Repr

/-- What has no meaning. -/
inductive Refusal where
  /-- Raised by `exec` for an instruction the model gives no meaning yet. Safe. No arm raises it now. -/
  | notModelled (mnemonic : String)
  /-- Raised by J, JAL, JR, JALR, a taken branch and ERET executed with `in_delay` = 1: UNPREDICTABLE, "a model must give
  it no meaning (treatment `refuse`)" (40_fetch_execute.md R163, 93_implementation_defined.md U1). Safe (log 9). -/
  | controlTransferInDelaySlot
  /-- Raised by the host action `run` alone, with `running` = 1: outside its precondition (70_reset_and_hazards.md R440,
  93_implementation_defined.md U24, treatment `refuse`). Safe (log 11). -/
  | runWhileRunning
  /-- Raised by the host's loader action alone, with `running` = 1: the loader acts "before `run` and never during it"
  (70_reset_and_hazards.md R438). Safe (log 11). -/
  | loadWhileRunning
deriving DecidableEq, Repr

/-- What a meaning, a step or a host action answers. -/
abbrev Result := Host.Outcome State Fault Refusal

/-- The CP0 registers after reset (70_reset_and_hazards.md R432). -/
def Cp0.reset (c : Config) : Cp0 where
  index := 0
  random := BitVec.ofNat 32 (c.tlbSize - 1)
  entryLo0 := 0
  entryLo1 := 0
  context := 0
  pageMask := 0
  wired := 0
  badVAddr := 0
  count := 0
  entryHi := 0
  compare := 0
  status := 0
  cause := 0
  epc := 0
  prid := c.pridValue
  ebase := 0
  config0 := c.config0Reset
  config1 := c.config1Value
  llAddr := 0
  watchLo := 0
  watchHi := 0
  xContext := 0
  errorEpc := 0

/-- The host's constructor `new_cpu(memory)` for a machine with parameters `c`, memory being `MEM_INIT`: the reset state
of 70_reset_and_hazards.md R430 to R434, before the loader acts (so PC = 0; log 3). -/
def State.newCpu (c : Config) : State where
  gpr := Vector.replicate 32 0
  pc := 0
  hi := 0
  lo := 0
  inDelay := false
  branchTarget := 0
  running := false
  cp0 := Cp0.reset c
  tlb := List.replicate c.tlbSize TlbEntry.zero
  mem := c.memInit
  cfg := c

/-- The machine right after reset, with the default parameters (10_state.md R75). -/
def State.reset : State := State.newCpu Config.default

end Sys2Proof.Machine
end

