-- ==== Sys2Proof/Machine/Ops.lean ====
section
/-! DEFINITION. The named operations over registers, memory and CP0 that every meaning is built from: the accessors, the
memory primitives (20_memory.md R84 to R90), the CP0 register functions (47_cop0.md R341, R342), the TLB operations
(R350 to R360), taking an exception (60_exceptions.md R388, R392, R396) and the return from one (R398), the timer and the
interrupt poll (R400, R404), and how each outcome moves PC (40_fetch_execute.md R157 to R161). -/

namespace Sys2Proof.Machine

/-! ### Bits of a word -/

/-- `w` with bit `i` set to `b` (00_scope.md R10 numbering). -/
def setBit (w : Word) (i : Nat) (b : Bool) : Word :=
  if b then w ||| (1#32 <<< i) else w &&& ~~~(1#32 <<< i)

/-- `w` with the field of `n` bits at bit `lo` replaced by `v`. -/
def insertField {n : Nat} (w : Word) (lo : Nat) (v : BitVec n) : Word :=
  (w &&& ~~~((BitVec.allOnes n).setWidth 32 <<< lo)) ||| (v.setWidth 32 <<< lo)

/-- A software write through a mask (10_state.md R31): the bits of `mask` from `v`, the others kept. -/
def maskWrite (old mask v : Word) : Word := (old &&& ~~~mask) ||| (v &&& mask)

/-- A bit as a number. -/
def bit (b : Bool) : Word := if b then 1 else 0

/-! ### General registers, HI and LO (10_state.md R21, R22, R24) -/

/-- `GPR[n]`: register 0 reads 0; there is no register above 31, and reading one gives 0 (R22). -/
def State.readGpr (s : State) (n : Nat) : Word := if n = 0 then 0 else s.gpr[n]?.getD 0

/-- `GPR[n] <- v`, the single setter of R21: discarded for n = 0, and for n above 31 (R22). -/
def State.writeGpr (s : State) (n : Nat) (v : Word) : State :=
  { s with gpr := if n = 0 then s.gpr else s.gpr.setIfInBounds n v }

/-- `HI <- h; LO <- l` (42_muldiv_hilo.md R220). -/
def State.setHiLo (s : State) (h l : Word) : State := { s with hi := h, lo := l }

/-- Replaces the CP0 registers. -/
def State.setCp0 (s : State) (c : Cp0) : State := { s with cp0 := c }

/-- Replaces the memory. -/
def State.setMem (s : State) (m : Memory) : State := { s with mem := m }

/-- Replaces the TLB array. -/
def State.setTlb (s : State) (t : List TlbEntry) : State := { s with tlb := t }

/-- `BadVAddr <- a` (20_memory.md R90; the host's `set_bad_vaddr`). -/
def State.setBadVAddr (s : State) (a : Word) : State := s.setCp0 { s.cp0 with badVAddr := a }

/-! ### The byte array -/

/-- What an address that the list does not hold reads as: MEM_INIT's default, zero (70_reset_and_hazards.md R434; log 4). -/
def Memory.unlisted : Byte := 0

/-- The canonical form: addresses strictly rising, no entry equal to what an unlisted address reads as. -/
abbrev Memory.wf (m : Memory) : Prop :=
  m.Pairwise (fun p q => p.1 < q.1) ∧ ∀ c ∈ m, c.2 ≠ Memory.unlisted

/-- One byte of the array. -/
def Memory.read : Memory → Nat → Byte
  | [], _ => Memory.unlisted
  | (b, x) :: m, a => if b = a then x else Memory.read m a

/-- `(a, v)` before the cells of `m`, unless `v` is what an unlisted address reads as. -/
def Memory.put (a : Nat) (v : Byte) (m : Memory) : Memory := if v = Memory.unlisted then m else (a, v) :: m

/-- One byte of the array replaced, the canonical form kept. -/
def Memory.write : Memory → Nat → Byte → Memory
  | [], a, v => Memory.put a v []
  | (b, x) :: m, a, v =>
    if a < b then Memory.put a v ((b, x) :: m)
    else if a = b then Memory.put a v m
    else (b, x) :: Memory.write m a v

/-- The halfword at `a`, big-endian (20_memory.md R83). -/
def Memory.readHalf (m : Memory) (a : Nat) : Half := m.read a ++ m.read (a + 1)

/-- The word at `a`, big-endian (20_memory.md R82). -/
def Memory.readWord (m : Memory) (a : Nat) : Word := m.read a ++ m.read (a + 1) ++ m.read (a + 2) ++ m.read (a + 3)

/-- The halfword at `a` replaced: bits 15:8 at `a` (20_memory.md R83, R87). -/
def Memory.writeHalf (m : Memory) (a : Nat) (v : Half) : Memory :=
  (m.write a (v.extractLsb' 8 8)).write (a + 1) (v.extractLsb' 0 8)

/-- The word at `a` replaced: bits 31:24 at `a` (20_memory.md R82, R87). -/
def Memory.writeWord (m : Memory) (a : Nat) (v : Word) : Memory :=
  (((m.write a (v.extractLsb' 24 8)).write (a + 1) (v.extractLsb' 16 8)).write (a + 2) (v.extractLsb' 8 8)).write (a + 3)
    (v.extractLsb' 0 8)

/-! ### The access primitives (20_memory.md R84 to R87) -/

/-- One byte of the state's memory. -/
def State.readByte (s : State) (a : Nat) : Byte := s.mem.read a

/-- `Admit(a, n)`, with `a` and `n` natural numbers: no 32-bit wrap in the sum (R85). -/
abbrev State.admits (s : State) (a : Word) (n : Nat) : Prop := a.toNat % n = 0 ∧ a.toNat + n - 1 < s.cfg.memSize

/-- `MemRead(a, 1)`; `none` is `ok = false` (R86). -/
def State.load8 (s : State) (a : Word) : Option Byte := if s.admits a 1 then some (s.mem.read a.toNat) else none

/-- `MemRead(a, 2)` (R86). -/
def State.load16 (s : State) (a : Word) : Option Half := if s.admits a 2 then some (s.mem.readHalf a.toNat) else none

/-- `MemRead(a, 4)`, the source's `load_word` (R84, R86). -/
def State.load32 (s : State) (a : Word) : Option Word := if s.admits a 4 then some (s.mem.readWord a.toNat) else none

/-- `MemWrite(a, 1, v)`; `none` is `ok = false`, and nothing has changed (R87). -/
def State.store8 (s : State) (a : Word) (v : Byte) : Option State :=
  if s.admits a 1 then some (s.setMem (s.mem.write a.toNat v)) else none

/-- `MemWrite(a, 2, v)` (R87). -/
def State.store16 (s : State) (a : Word) (v : Half) : Option State :=
  if s.admits a 2 then some (s.setMem (s.mem.writeHalf a.toNat v)) else none

/-- `MemWrite(a, 4, v)`, the source's `store_word` (R84, R87). -/
def State.store32 (s : State) (a : Word) (v : Word) : Option State :=
  if s.admits a 4 then some (s.setMem (s.mem.writeWord a.toNat v)) else none

/-! ### CP0 fields (10_state.md R34 to R46) -/

/-- Index.P, bit 31 (R34). -/
def Cp0.indexP (c : Cp0) : Bool := c.index.getLsbD 31
/-- Index[5:0] (R34). -/
def Cp0.indexField (c : Cp0) : Nat := (c.index.extractLsb' 0 6).toNat
/-- EntryHi.VPN2, bits 31:13 (R43). -/
def Cp0.vpn2 (c : Cp0) : BitVec 19 := c.entryHi.extractLsb' 13 19
/-- EntryHi.ASID, bits 7:0 (R43). -/
def Cp0.asid (c : Cp0) : BitVec 8 := c.entryHi.extractLsb' 0 8
/-- Status.IE, bit 0 (R45). -/
def Cp0.ie (c : Cp0) : Bool := c.status.getLsbD 0
/-- Status.EXL, bit 1 (R45). -/
def Cp0.exl (c : Cp0) : Bool := c.status.getLsbD 1
/-- Status.ERL, bit 2 (R45). -/
def Cp0.erl (c : Cp0) : Bool := c.status.getLsbD 2
/-- Status.IM, bits 15:8 (R45). -/
def Cp0.im (c : Cp0) : BitVec 8 := c.status.extractLsb' 8 8
/-- Cause.IP, bits 15:8 (R46). -/
def Cp0.ip (c : Cp0) : BitVec 8 := c.cause.extractLsb' 8 8
/-- Cause.ExcCode, bits 6:2 (R46). -/
def Cp0.excCode (c : Cp0) : BitVec 5 := c.cause.extractLsb' 2 5
/-- Cause.BD, bit 31 (R46). -/
def Cp0.bd (c : Cp0) : Bool := c.cause.getLsbD 31
/-- Cause.TI, bit 30 (R46). -/
def Cp0.ti (c : Cp0) : Bool := c.cause.getLsbD 30
/-- Cause.IV, bit 23 (R46). -/
def Cp0.iv (c : Cp0) : Bool := c.cause.getLsbD 23

/-! ### CP0 register access (10_state.md R30, R31; 47_cop0.md R341, R342) -/

/-- `clampIdx(v)`: too large a value saturates at the top entry (10_state.md R36). -/
def clampIdx (tlbSize : Nat) (v : BitVec 6) : Word :=
  if v.toNat ≥ tlbSize then BitVec.ofNat 32 (tlbSize - 1) else v.setWidth 32

/-- `CP0Read(reg, sel)` (47_cop0.md R341): a pair that is no register reads 0. -/
def Cp0.read (c : Cp0) (reg sel : Nat) : Word :=
  match reg, sel with
  | 0, 0 => c.index
  | 1, 0 => c.random
  | 2, 0 => c.entryLo0
  | 3, 0 => c.entryLo1
  | 4, 0 => c.context
  | 5, 0 => c.pageMask
  | 6, 0 => c.wired
  | 8, 0 => c.badVAddr
  | 9, 0 => c.count
  | 10, 0 => c.entryHi
  | 11, 0 => c.compare
  | 12, 0 => c.status
  | 13, 0 => c.cause
  | 14, 0 => c.epc
  | 15, 0 => c.prid
  | 15, 1 => c.ebase
  | 16, 0 => c.config0
  | 16, 1 => c.config1
  | 17, 0 => c.llAddr
  | 18, 0 => c.watchLo
  | 19, 0 => c.watchHi
  | 20, 0 => c.xContext
  | 30, 0 => c.errorEpc
  | _, _ => 0

/-- `CP0Write(reg, sel, v)` (47_cop0.md R342), each row its whole effect: a read-only register and a pair that is no
register discard the write. -/
def Cp0.write (c : Cp0) (tlbSize reg sel : Nat) (v : Word) : Cp0 :=
  match reg, sel with
  | 0, 0 => { c with index := (c.index &&& 0x80000000) ||| clampIdx tlbSize (v.extractLsb' 0 6) }
  | 2, 0 => { c with entryLo0 := v &&& 0x3FFFFFFF }
  | 3, 0 => { c with entryLo1 := v &&& 0x3FFFFFFF }
  | 4, 0 => { c with context := v }
  | 5, 0 => { c with pageMask := v &&& 0x01FFE000 }
  | 6, 0 => { c with wired := clampIdx tlbSize (v.extractLsb' 0 6), random := BitVec.ofNat 32 (tlbSize - 1) }
  | 9, 0 => { c with count := v }
  | 10, 0 => { c with entryHi := v &&& 0xFFFFE0FF }
  | 11, 0 => { c with compare := v, cause := c.cause &&& 0xBFFF7FFF }
  | 12, 0 => { c with status := v }
  | 13, 0 => { c with cause := maskWrite c.cause 0x00800300 v }
  | 14, 0 => { c with epc := v }
  | 15, 1 => { c with ebase := v }
  | 16, 0 => { c with config0 := maskWrite c.config0 0x00000007 v }
  | 17, 0 => { c with llAddr := v }
  | 18, 0 => { c with watchLo := v }
  | 19, 0 => { c with watchHi := v }
  | 20, 0 => { c with xContext := v }
  | 30, 0 => { c with errorEpc := v }
  | _, _ => c

/-! ### The timer and the Random register -/

/-- `Tick(1)` (60_exceptions.md R404): Count moves; TI and IP7 are set on the exact tick Count equals a non-zero Compare. -/
def Cp0.tick (c : Cp0) : Cp0 :=
  if c.compare ≠ 0 ∧ c.count + 1 = c.compare then
    { c with count := c.count + 1, cause := setBit (setBit c.cause 30 true) 15 true }
  else { c with count := c.count + 1 }

/-- `RandomStep()` (47_cop0.md R360). -/
def Cp0.randomStep (c : Cp0) (tlbSize : Nat) : Cp0 :=
  { c with random := if c.random.toNat ≤ c.wired.toNat then BitVec.ofNat 32 (tlbSize - 1) else c.random - 1 }

/-- Stage 2 of a step: `Tick(1)`, then `RandomStep()` (40_fetch_execute.md R153). -/
def State.tick (s : State) : State := s.setCp0 (s.cp0.tick.randomStep s.cfg.tlbSize)

/-- `PendingInterrupt()` (60_exceptions.md R400). -/
def Cp0.pendingInterrupt (c : Cp0) : Bool := c.ie && !c.exl && !c.erl && (c.ip &&& c.im) != 0

/-! ### Taking an exception and returning from one -/

/-- The code of an exception (60_exceptions.md R380). -/
def excNumber : ExcCode → BitVec 5
  | .int => 0
  | .mod => 1
  | .tlbl => 2
  | .tlbs => 3
  | .adel => 4
  | .ades => 5
  | .sys => 8
  | .bp => 9
  | .ri => 10
  | .cpu => 11
  | .ov => 12
  | .tr => 13

/-- The base of the vectors: EBase in [0x80000000, 0xBFC00000), unsigned and whole, else the default (60_exceptions.md R392). -/
def Cp0.vectorBase (c : Cp0) : Word :=
  if 0x80000000 ≤ c.ebase.toNat ∧ c.ebase.toNat < 0xBFC00000 then c.ebase else 0xBFC00000

/-- `VectorFor(excCode)` (60_exceptions.md R392). -/
def Cp0.vectorFor (c : Cp0) (code : ExcCode) : Word :=
  c.vectorBase + (if code = .int ∧ c.iv = true then 0x200 else 0x180)

/-- The CP0 side of `RaiseException(excCode, pc, inDelay)` (60_exceptions.md R388), whatever EXL was (R395). -/
def Cp0.raise (c : Cp0) (code : ExcCode) (pc : Word) (inDelay : Bool) : Cp0 :=
  { c with
    cause := setBit (insertField c.cause 2 (excNumber code)) 31 inDelay
    epc := if inDelay then pc - 4 else pc
    status := setBit c.status 1 true }

/-- Taking an exception, whole: the raise (60_exceptions.md R388), `PC <- vector; in_delay <- 0` with the pending
branch target dropped (40_fetch_execute.md R158; log 7), then the disposition (60_exceptions.md R396). -/
def State.raise (s : State) (code : ExcCode) : State :=
  { s with
    cp0 := s.cp0.raise code s.pc s.inDelay
    pc := s.cp0.vectorFor code
    inDelay := false
    running := if code ∈ s.cfg.haltCodes then false else s.running }

/-- An address error: `BadVAddr <- a`, then the raise (20_memory.md R90). -/
def State.addressError (s : State) (code : ExcCode) (a : Word) : State := (s.setBadVAddr a).raise code

/-- The CP0 side of ERET (47_cop0.md R346, 60_exceptions.md R398). -/
def Cp0.eret (c : Cp0) : Cp0 :=
  if c.erl then { c with cause := setBit c.cause 31 false, status := setBit c.status 2 false }
  else { c with cause := setBit c.cause 31 false, status := setBit c.status 1 false }

/-- The return address of ERET (47_cop0.md R346). -/
def Cp0.eretTarget (c : Cp0) : Word := if c.erl then c.errorEpc else c.epc

/-! ### How an outcome moves PC, in_delay and branch_target (40_fetch_execute.md R157 to R161) -/

/-- Outcome `next` (R157): to `branch_target` when this was a delay slot, else to PC + 4. -/
def State.retire (s : State) : State :=
  { s with pc := if s.inDelay then s.branchTarget else s.pc + 4, inDelay := false }

/-- Outcome `delayed(T)` (R160); UNPREDICTABLE in a delay slot, so refused there (R163). -/
def State.delayTo (s : State) (target : Word) : Result :=
  if s.inDelay then .refused .controlTransferInDelaySlot
  else .next { s with branchTarget := target, pc := s.pc + 4, inDelay := true }

/-- Outcome `immediate(T)` (R159), ERET's alone; UNPREDICTABLE in a delay slot, so refused there (R163). -/
def State.goTo (s : State) (target : Word) : Result :=
  if s.inDelay then .refused .controlTransferInDelaySlot else .next { s with pc := target, inDelay := false }

/-- An instruction that writes `v` to `GPR[n]` and has outcome `next`. -/
def State.finish (s : State) (n : Nat) (v : Word) : Result := .next (s.writeGpr n v).retire

/-! ### The TLB (47_cop0.md R350 to R358) -/

/-- The entry TLBWI and TLBWR store, from EntryHi, EntryLo0, EntryLo1 and PageMask (R350). -/
def Cp0.toEntry (c : Cp0) : TlbEntry where
  vpn2 := c.vpn2
  asid := c.asid
  g := c.entryLo0.getLsbD 0 && c.entryLo1.getLsbD 0
  mask := c.pageMask.extractLsb' 13 12
  pfn0 := c.entryLo0.extractLsb' 6 20
  c0 := c.entryLo0.extractLsb' 3 3
  d0 := c.entryLo0.getLsbD 2
  v0 := c.entryLo0.getLsbD 1
  pfn1 := c.entryLo1.extractLsb' 6 20
  c1 := c.entryLo1.extractLsb' 3 3
  d1 := c.entryLo1.getLsbD 2
  v1 := c.entryLo1.getLsbD 1

/-- EntryHi as TLBR packs it (R351). -/
def TlbEntry.hiWord (e : TlbEntry) : Word := (e.vpn2.setWidth 32 <<< 13) ||| e.asid.setWidth 32

/-- An EntryLo register as TLBR packs it (R351). -/
def packLo (pfn : BitVec 20) (cc : BitVec 3) (d v g : Bool) : Word :=
  (pfn.setWidth 32 <<< 6) ||| (cc.setWidth 32 <<< 3) ||| (bit d <<< 2) ||| (bit v <<< 1) ||| bit g

/-- `TLBReadEntry`: the four registers from an entry (R351). -/
def Cp0.fromEntry (c : Cp0) (e : TlbEntry) : Cp0 :=
  { c with
    entryHi := e.hiWord
    entryLo0 := packLo e.pfn0 e.c0 e.d0 e.v0 e.g
    entryLo1 := packLo e.pfn1 e.c1 e.d1 e.v1 e.g
    pageMask := e.mask.setWidth 32 <<< 13 }

/-- TLBP's match: VPN2 whole, and G or the same ASID (R352). -/
def TlbEntry.hits (e : TlbEntry) (c : Cp0) : Bool := e.vpn2 == c.vpn2 && (e.g || e.asid == c.asid)

/-- What TLBP writes to Index: the first matching position, or P alone (R352). -/
def probeResult (tlb : List TlbEntry) (c : Cp0) : Word :=
  match tlb.findIdx? (fun e => e.hits c) with
  | some i => BitVec.ofNat 32 i
  | none => 0x80000000

/-- The entry TLBWR writes: Random clamped to [Wired, TLB_SIZE - 1] (R358). -/
def Cp0.randomEntry (c : Cp0) (tlbSize : Nat) : Nat := max c.wired.toNat (min c.random.toNat (tlbSize - 1))

/-! ### Stages 1 to 3 of a step (40_fetch_execute.md R150 to R154) -/

/-- What stages 1 to 3 leave to do. -/
inductive Front where
  /-- `running` = 0: no step (R151). -/
  | stopped
  /-- The fetch failed (R152) or an interrupt was taken (R154): the step has ended in this state. -/
  | raised (s : State)
  /-- The word fetched, to be decoded and executed in this state (R155). -/
  | ready (w : Word) (s : State)
deriving DecidableEq, Repr

/-- Stages 1 to 3: fetch, tick, interrupt poll (40_fetch_execute.md R152 to R154, in the order of 60_exceptions.md R394). -/
def State.front (s : State) : Front :=
  if s.running then
    match s.load32 s.pc with
    | none => .raised (s.addressError .adel s.pc)
    | some w => if s.tick.cp0.pendingInterrupt then .raised (s.tick.raise .int) else .ready w s.tick
  else .stopped

end Sys2Proof.Machine
end

