-- ==== Sys2Proof/Machine/Operands.lean ====
section
/-! DEFINITION. The operand forms: how each immediate, address, target and shift amount is made (30_encoding.md R123). -/

namespace Sys2Proof.Machine

/-- `sext_16(imm)` (R123 a, d). -/
def sext16 (imm : BitVec 16) : Word := imm.signExtend 32

/-- `zext_16(imm)` (R123 b). -/
def zext16 (imm : BitVec 16) : Word := imm.setWidth 32

/-- `imm ++ 0x0000`, LUI's operand (R123 c). -/
def upper16 (imm : BitVec 16) : Word := imm ++ 0#16

/-- `sext_8(v)`, what LB writes (45_load_store.md R285). -/
def sext8 (v : Byte) : Word := v.signExtend 32

/-- `zext_8(v)`, what LBU writes (45_load_store.md R286). -/
def zext8 (v : Byte) : Word := v.setWidth 32

/-- The effective address of a load or store, modulo 2^32 (45_load_store.md R280). -/
def State.effAddr (s : State) (base : Nat) (offset : BitVec 16) : Word := s.readGpr base + sext16 offset

/-- The target of a conditional branch at `pc`, modulo 2^32 (46_branch_jump.md R310). -/
def branchTargetOf (pc : Word) (offset : BitVec 16) : Word := pc + 4 + (sext16 offset <<< 2)

/-- The target of J and JAL at `pc`: bits 31:28 from PC + 4 (46_branch_jump.md R320). -/
def jumpTargetOf (pc : Word) (target : BitVec 26) : Word := ((pc + 4) &&& 0xF0000000) ||| (target.setWidth 32 <<< 2)

/-- The link value, the address after the delay slot (46_branch_jump.md R311). -/
def linkOf (pc : Word) : Word := pc + 8

/-- The amount of a variable shift: the low 5 bits of the register (41_rtype_alu.md R191). -/
def shiftAmount (v : Word) : Nat := (v.extractLsb' 0 5).toNat

/-- The aligned word that holds an address (45_load_store.md R295, `a`). -/
def alignedAddr (a : Word) : Word := a &&& 0xFFFFFFFC

/-- The byte's place in its aligned word (45_load_store.md R295, `b`). -/
def byteOffset (a : Word) : Nat := (a.extractLsb' 0 2).toNat

end Sys2Proof.Machine
end

