-- ==== Sys2Proof/Machine/Flags.lean ====
section
/-! DEFINITION. The block has no flags (10_state.md R28). What other machines compute as flags it computes as predicates,
and this file holds them all: signed overflow (41_rtype_alu.md R180, R181) and the comparisons of set, trap and branch
instructions. -/

namespace Sys2Proof.Machine

/-- `add_overflow(a, b, s)`: "both operands share a sign and the result's sign differs" (R180). -/
def addOverflow (a b s : Word) : Bool := a.getLsbD 31 == b.getLsbD 31 && s.getLsbD 31 != a.getLsbD 31

/-- `sub_overflow(a, b, d)`: "a and b have opposite signs and the result's sign differs from a" (R181). -/
def subOverflow (a b d : Word) : Bool := a.getLsbD 31 != b.getLsbD 31 && d.getLsbD 31 != a.getLsbD 31

/-- signed(a) < signed(b), exact (41_rtype_alu.md R198). -/
def signedLt (a b : Word) : Bool := decide (a.toInt < b.toInt)

/-- unsigned(a) < unsigned(b) (41_rtype_alu.md R199). -/
def unsignedLt (a b : Word) : Bool := decide (a.toNat < b.toNat)

/-- signed(a) < 0 (46_branch_jump.md R316). -/
def isNegative (a : Word) : Bool := signedLt a 0

/-- signed(a) > 0 (46_branch_jump.md R315). -/
def isPositive (a : Word) : Bool := signedLt 0 a

end Sys2Proof.Machine
end

