-- ==== Sys2Proof/Machine/Alu.lean ====
section
/-! DEFINITION. R-type arithmetic, logic, shifts, compares and conditional moves (41_rtype_alu.md R182 to R201). -/

namespace Sys2Proof.Machine

/-- ADD (R182): Ov on signed overflow, and then rd is not written. -/
def execAdd (rd rs rt : Nat) (s : State) : Result :=
  let sum := s.readGpr rs + s.readGpr rt
  if addOverflow (s.readGpr rs) (s.readGpr rt) sum then .next (s.raise .ov) else s.finish rd sum

/-- ADDU (R183). -/
def execAddu (rd rs rt : Nat) (s : State) : Result := s.finish rd (s.readGpr rs + s.readGpr rt)

/-- SUB (R184): Ov on signed overflow, and then rd is not written. -/
def execSub (rd rs rt : Nat) (s : State) : Result :=
  let diff := s.readGpr rs - s.readGpr rt
  if subOverflow (s.readGpr rs) (s.readGpr rt) diff then .next (s.raise .ov) else s.finish rd diff

/-- SUBU (R185). -/
def execSubu (rd rs rt : Nat) (s : State) : Result := s.finish rd (s.readGpr rs - s.readGpr rt)

/-- AND (R186). -/
def execAnd (rd rs rt : Nat) (s : State) : Result := s.finish rd (s.readGpr rs &&& s.readGpr rt)

/-- OR (R187). -/
def execOr (rd rs rt : Nat) (s : State) : Result := s.finish rd (s.readGpr rs ||| s.readGpr rt)

/-- XOR (R188). -/
def execXor (rd rs rt : Nat) (s : State) : Result := s.finish rd (s.readGpr rs ^^^ s.readGpr rt)

/-- NOR (R189). -/
def execNor (rd rs rt : Nat) (s : State) : Result := s.finish rd (~~~(s.readGpr rs ||| s.readGpr rt))

/-- SLL (R192). -/
def execSll (rd rt shamt : Nat) (s : State) : Result := s.finish rd (s.readGpr rt <<< shamt)

/-- SRL (R193). -/
def execSrl (rd rt shamt : Nat) (s : State) : Result := s.finish rd (s.readGpr rt >>> shamt)

/-- SRA (R194). -/
def execSra (rd rt shamt : Nat) (s : State) : Result := s.finish rd ((s.readGpr rt).sshiftRight shamt)

/-- SLLV (R195). -/
def execSllv (rd rt rs : Nat) (s : State) : Result := s.finish rd (s.readGpr rt <<< shiftAmount (s.readGpr rs))

/-- SRLV (R196). -/
def execSrlv (rd rt rs : Nat) (s : State) : Result := s.finish rd (s.readGpr rt >>> shiftAmount (s.readGpr rs))

/-- SRAV (R197). -/
def execSrav (rd rt rs : Nat) (s : State) : Result :=
  s.finish rd ((s.readGpr rt).sshiftRight (shiftAmount (s.readGpr rs)))

/-- SLT (R198). -/
def execSlt (rd rs rt : Nat) (s : State) : Result := s.finish rd (bit (signedLt (s.readGpr rs) (s.readGpr rt)))

/-- SLTU (R199). -/
def execSltu (rd rs rt : Nat) (s : State) : Result := s.finish rd (bit (unsignedLt (s.readGpr rs) (s.readGpr rt)))

/-- MOVN (R200): when the condition fails nothing is written. -/
def execMovn (rd rs rt : Nat) (s : State) : Result :=
  if s.readGpr rt ≠ 0 then s.finish rd (s.readGpr rs) else .next s.retire

/-- MOVZ (R201): when the condition fails nothing is written. -/
def execMovz (rd rs rt : Nat) (s : State) : Result :=
  if s.readGpr rt = 0 then s.finish rd (s.readGpr rs) else .next s.retire

end Sys2Proof.Machine
end

