-- ==== Sys2Proof/Machine/Branch.lean ====
section
/-! DEFINITION. Branches and jumps (46_branch_jump.md R310 to R325). PC in a meaning is the instruction's own address. -/

namespace Sys2Proof.Machine

/-- A conditional branch: taken, outcome `delayed(T)`; not taken, outcome `next` (R310). -/
def State.branchIf (s : State) (taken : Bool) (offset : BitVec 16) : Result :=
  if taken then s.delayTo (branchTargetOf s.pc offset) else .next s.retire

/-- BEQ (R312). -/
def execBeq (rs rt : Nat) (offset : BitVec 16) (s : State) : Result :=
  s.branchIf (s.readGpr rs == s.readGpr rt) offset

/-- BNE (R313). -/
def execBne (rs rt : Nat) (offset : BitVec 16) (s : State) : Result :=
  s.branchIf (s.readGpr rs != s.readGpr rt) offset

/-- BLEZ (R314). -/
def execBlez (rs : Nat) (offset : BitVec 16) (s : State) : Result := s.branchIf (!isPositive (s.readGpr rs)) offset

/-- BGTZ (R315). -/
def execBgtz (rs : Nat) (offset : BitVec 16) (s : State) : Result := s.branchIf (isPositive (s.readGpr rs)) offset

/-- BLTZ (R316). -/
def execBltz (rs : Nat) (offset : BitVec 16) (s : State) : Result := s.branchIf (isNegative (s.readGpr rs)) offset

/-- BGEZ (R317). -/
def execBgez (rs : Nat) (offset : BitVec 16) (s : State) : Result := s.branchIf (!isNegative (s.readGpr rs)) offset

/-- BLTZAL (R318): the condition is read before the link is written; the link is written taken or not (R311). -/
def execBltzal (rs : Nat) (offset : BitVec 16) (s : State) : Result :=
  (s.writeGpr 31 (linkOf s.pc)).branchIf (isNegative (s.readGpr rs)) offset

/-- BGEZAL (R319): as BLTZAL. -/
def execBgezal (rs : Nat) (offset : BitVec 16) (s : State) : Result :=
  (s.writeGpr 31 (linkOf s.pc)).branchIf (!isNegative (s.readGpr rs)) offset

/-- J (R320). -/
def execJ (target : BitVec 26) (s : State) : Result := s.delayTo (jumpTargetOf s.pc target)

/-- JAL (R321). -/
def execJal (target : BitVec 26) (s : State) : Result :=
  (s.writeGpr 31 (linkOf s.pc)).delayTo (jumpTargetOf s.pc target)

/-- JR (R322): no alignment check at the jump (R325). -/
def execJr (rs : Nat) (s : State) : Result := s.delayTo (s.readGpr rs)

/-- JALR (R323): the target is read after the link is written. -/
def execJalr (rd rs : Nat) (s : State) : Result :=
  (s.writeGpr rd (linkOf s.pc)).delayTo ((s.writeGpr rd (linkOf s.pc)).readGpr rs)

end Sys2Proof.Machine
end

