-- ==== Sys2Proof/Machine/Cop0.lean ====
section
/-! DEFINITION. The COP0 instructions (47_cop0.md R340 to R360). They are always usable: there is one privilege level
(R340, 60_exceptions.md R410). -/

namespace Sys2Proof.Machine

/-- MFC0 (R343). -/
def execMfc0 (rt rd sel : Nat) (s : State) : Result := s.finish rt (s.cp0.read rd sel)

/-- MTC0 (R344). -/
def execMtc0 (rt rd sel : Nat) (s : State) : Result :=
  .next (s.setCp0 (s.cp0.write s.cfg.tlbSize rd sel (s.readGpr rt))).retire

/-- ERET (R346): no delay slot. -/
def execEret (s : State) : Result := (s.setCp0 s.cp0.eret).goTo s.cp0.eretTarget

/-- TLBP (R352). -/
def execTlbp (s : State) : Result := .next (s.setCp0 { s.cp0 with index := probeResult s.tlb s.cp0 }).retire

/-- TLBR (R354): a no-op when Index.P = 1. An index outside the array, which no reachable state holds, reads the zero
entry (log 14). -/
def execTlbr (s : State) : Result :=
  if s.cp0.indexP then .next s.retire
  else .next (s.setCp0 (s.cp0.fromEntry (s.tlb.getD s.cp0.indexField TlbEntry.zero))).retire

/-- TLBWI (R356): a no-op when Index.P = 1. -/
def execTlbwi (s : State) : Result :=
  if s.cp0.indexP then .next s.retire else .next (s.setTlb (s.tlb.set s.cp0.indexField s.cp0.toEntry)).retire

/-- TLBWR (R358): the entry Random names, then Random steps once more. -/
def execTlbwr (s : State) : Result :=
  .next ((s.setTlb (s.tlb.set (s.cp0.randomEntry s.cfg.tlbSize) s.cp0.toEntry)).setCp0
    (s.cp0.randomStep s.cfg.tlbSize)).retire

end Sys2Proof.Machine
end

