-- ==== Sys2Proof/Machine/Immediate.lean ====
section
/-! DEFINITION. Immediate arithmetic, logic and compares, and LUI (44_itype_alu.md R261 to R268). -/

namespace Sys2Proof.Machine

/-- ADDI (R261): Ov on signed overflow, and then rt is not written. -/
def execAddi (rt rs : Nat) (imm : BitVec 16) (s : State) : Result :=
  let sum := s.readGpr rs + sext16 imm
  if addOverflow (s.readGpr rs) (sext16 imm) sum then .next (s.raise .ov) else s.finish rt sum

/-- ADDIU (R262): the immediate is sign extended. -/
def execAddiu (rt rs : Nat) (imm : BitVec 16) (s : State) : Result := s.finish rt (s.readGpr rs + sext16 imm)

/-- ANDI (R263). -/
def execAndi (rt rs : Nat) (imm : BitVec 16) (s : State) : Result := s.finish rt (s.readGpr rs &&& zext16 imm)

/-- ORI (R264). -/
def execOri (rt rs : Nat) (imm : BitVec 16) (s : State) : Result := s.finish rt (s.readGpr rs ||| zext16 imm)

/-- XORI (R265). -/
def execXori (rt rs : Nat) (imm : BitVec 16) (s : State) : Result := s.finish rt (s.readGpr rs ^^^ zext16 imm)

/-- SLTI (R266). -/
def execSlti (rt rs : Nat) (imm : BitVec 16) (s : State) : Result :=
  s.finish rt (bit (signedLt (s.readGpr rs) (sext16 imm)))

/-- SLTIU (R267): the immediate is sign extended, then compared unsigned. -/
def execSltiu (rt rs : Nat) (imm : BitVec 16) (s : State) : Result :=
  s.finish rt (bit (unsignedLt (s.readGpr rs) (sext16 imm)))

/-- LUI (R268). -/
def execLui (rt : Nat) (imm : BitVec 16) (s : State) : Result := s.finish rt (upper16 imm)

end Sys2Proof.Machine
end

