-- ==== Sys2Proof/Machine/LoadStore.lean ====
section
/-! DEFINITION. Loads and stores (45_load_store.md R280 to R301). -/

namespace Sys2Proof.Machine

/-- A load's end: the value into `GPR[rt]`, or AdEL with BadVAddr = the address and rt not written (R281). -/
def State.finishLoad (s : State) (rt : Nat) (a : Word) : Option Word → Result
  | some v => s.finish rt v
  | none => .next (s.addressError .adel a)

/-- A store's end: the state with the bytes stored, or AdES with BadVAddr = the address and memory unchanged (R281). -/
def State.finishStore (s : State) (a : Word) : Option State → Result
  | some t => .next t.retire
  | none => .next (s.addressError .ades a)

/-- LW (R282). -/
def execLw (rt base : Nat) (offset : BitVec 16) (s : State) : Result :=
  s.finishLoad rt (s.effAddr base offset) (s.load32 (s.effAddr base offset))

/-- LH (R283): sign extended. -/
def execLh (rt base : Nat) (offset : BitVec 16) (s : State) : Result :=
  s.finishLoad rt (s.effAddr base offset) ((s.load16 (s.effAddr base offset)).map sext16)

/-- LHU (R284): zero extended. -/
def execLhu (rt base : Nat) (offset : BitVec 16) (s : State) : Result :=
  s.finishLoad rt (s.effAddr base offset) ((s.load16 (s.effAddr base offset)).map zext16)

/-- LB (R285): sign extended. -/
def execLb (rt base : Nat) (offset : BitVec 16) (s : State) : Result :=
  s.finishLoad rt (s.effAddr base offset) ((s.load8 (s.effAddr base offset)).map sext8)

/-- LBU (R286): zero extended. -/
def execLbu (rt base : Nat) (offset : BitVec 16) (s : State) : Result :=
  s.finishLoad rt (s.effAddr base offset) ((s.load8 (s.effAddr base offset)).map zext8)

/-- SW (R290). -/
def execSw (rt base : Nat) (offset : BitVec 16) (s : State) : Result :=
  s.finishStore (s.effAddr base offset) (s.store32 (s.effAddr base offset) (s.readGpr rt))

/-- SH (R291): bits 15:0 of the register. -/
def execSh (rt base : Nat) (offset : BitVec 16) (s : State) : Result :=
  s.finishStore (s.effAddr base offset) (s.store16 (s.effAddr base offset) ((s.readGpr rt).extractLsb' 0 16))

/-- SB (R292): bits 7:0 of the register. -/
def execSb (rt base : Nat) (offset : BitVec 16) (s : State) : Result :=
  s.finishStore (s.effAddr base offset) (s.store8 (s.effAddr base offset) ((s.readGpr rt).extractLsb' 0 8))

/-! ### The unaligned word parts: a no-op under `UNALIGNED_LS = stub` (R294), the MIPS32 merge under `full` (R295, log 18) -/

/-- LWL's merge of the aligned word `w` into the register's value `r`, byte place `b` (R295). -/
def mergeLwl (w r : Word) (b : Nat) : Word := (w <<< (8 * b)) ||| (r &&& ((1#32 <<< (8 * b)) - 1))

/-- LWR's merge (R295). -/
def mergeLwr (w r : Word) (b : Nat) : Word :=
  (r &&& ~~~((1#32 <<< (8 * (b + 1))) - 1)) ||| (w >>> (8 * (3 - b)))

/-- What SWL stores to the aligned word (R295). -/
def mergeSwl (w r : Word) (b : Nat) : Word := (w &&& ~~~(0xFFFFFFFF#32 >>> (8 * b))) ||| (r >>> (8 * b))

/-- What SWR stores to the aligned word (R295). -/
def mergeSwr (w r : Word) (b : Nat) : Word := (r <<< (8 * (3 - b))) ||| (w &&& ((1#32 <<< (8 * (3 - b))) - 1))

/-- LWL (R296). -/
def execLwl (rt base : Nat) (offset : BitVec 16) (s : State) : Result :=
  match s.cfg.unalignedLs with
  | .stub => .next s.retire
  | .full =>
    let a := s.effAddr base offset
    s.finishLoad rt a ((s.load32 (alignedAddr a)).map fun w => mergeLwl w (s.readGpr rt) (byteOffset a))

/-- LWR (R297). -/
def execLwr (rt base : Nat) (offset : BitVec 16) (s : State) : Result :=
  match s.cfg.unalignedLs with
  | .stub => .next s.retire
  | .full =>
    let a := s.effAddr base offset
    s.finishLoad rt a ((s.load32 (alignedAddr a)).map fun w => mergeLwr w (s.readGpr rt) (byteOffset a))

/-- SWL (R298). -/
def execSwl (rt base : Nat) (offset : BitVec 16) (s : State) : Result :=
  match s.cfg.unalignedLs with
  | .stub => .next s.retire
  | .full =>
    let a := s.effAddr base offset
    s.finishStore a
      (s.store32 (alignedAddr a) (mergeSwl (s.mem.readWord (alignedAddr a).toNat) (s.readGpr rt) (byteOffset a)))

/-- SWR (R299). -/
def execSwr (rt base : Nat) (offset : BitVec 16) (s : State) : Result :=
  match s.cfg.unalignedLs with
  | .stub => .next s.retire
  | .full =>
    let a := s.effAddr base offset
    s.finishStore a
      (s.store32 (alignedAddr a) (mergeSwr (s.mem.readWord (alignedAddr a).toNat) (s.readGpr rt) (byteOffset a)))

/-! ### LL and SC: LW, and SW then `rt <- 1`; there is no reservation (R300, R301, 20_memory.md R103) -/

/-- LL (R300): exactly LW. -/
def execLl (rt base : Nat) (offset : BitVec 16) (s : State) : Result :=
  s.finishLoad rt (s.effAddr base offset) (s.load32 (s.effAddr base offset))

/-- SC (R301): the store, then 1 into rt; on a fault rt is not written. -/
def execSc (rt base : Nat) (offset : BitVec 16) (s : State) : Result :=
  s.finishStore (s.effAddr base offset)
    ((s.store32 (s.effAddr base offset) (s.readGpr rt)).map fun t => t.writeGpr rt 1)

end Sys2Proof.Machine
end

