-- ==== Sys2Proof/Machine/MulDiv.lean ====
section
/-! DEFINITION. Multiply, divide and the HI/LO moves (42_muldiv_hilo.md R220 to R229). None raises an exception. -/

namespace Sys2Proof.Machine

/-- A 64-bit product into HI (bits 63:32) and LO (bits 31:0) (R221, R222). -/
def State.finishProduct (s : State) (p : BitVec 64) : Result :=
  .next (s.setHiLo (p.extractLsb' 32 32) (p.extractLsb' 0 32)).retire

/-- MULT (R221): the exact signed product. -/
def execMult (rs rt : Nat) (s : State) : Result :=
  s.finishProduct (BitVec.ofInt 64 ((s.readGpr rs).toInt * (s.readGpr rt).toInt))

/-- MULTU (R222): the exact unsigned product. -/
def execMultu (rs rt : Nat) (s : State) : Result :=
  s.finishProduct (BitVec.ofNat 64 ((s.readGpr rs).toNat * (s.readGpr rt).toNat))

/-- DIV (R223): quotient rounded toward zero, cut to 32 bits, into LO; the remainder into HI; both 0 for a zero divisor. -/
def execDiv (rs rt : Nat) (s : State) : Result :=
  if s.readGpr rt = 0 then .next (s.setHiLo 0 0).retire
  else
    let n := (s.readGpr rs).toInt
    let d := (s.readGpr rt).toInt
    let q := n.tdiv d
    .next (s.setHiLo (BitVec.ofInt 32 (n - q * d)) (BitVec.ofInt 32 q)).retire

/-- DIVU (R224): both 0 for a zero divisor. -/
def execDivu (rs rt : Nat) (s : State) : Result :=
  if s.readGpr rt = 0 then .next (s.setHiLo 0 0).retire
  else
    let n := (s.readGpr rs).toNat
    let d := (s.readGpr rt).toNat
    .next (s.setHiLo (BitVec.ofNat 32 (n % d)) (BitVec.ofNat 32 (n / d))).retire

/-- MFHI (R226). -/
def execMfhi (rd : Nat) (s : State) : Result := s.finish rd s.hi

/-- MFLO (R227). -/
def execMflo (rd : Nat) (s : State) : Result := s.finish rd s.lo

/-- MTHI (R228): LO is left unchanged. -/
def execMthi (rs : Nat) (s : State) : Result := .next (s.setHiLo (s.readGpr rs) s.lo).retire

/-- MTLO (R229): HI is left unchanged. -/
def execMtlo (rs : Nat) (s : State) : Result := .next (s.setHiLo s.hi (s.readGpr rs)).retire

end Sys2Proof.Machine
end

