-- ==== Sys2Proof/Machine/Trap.lean ====
section
/-! DEFINITION. Conditional traps, SYSCALL, BREAK and SYNC (43_trap_system.md R240 to R252). The code fields are not read
(R240, R250, R251). -/

namespace Sys2Proof.Machine

/-- A trap instruction: Tr when its comparison holds, else nothing (R240). -/
def State.trapIf (s : State) (holds : Bool) : Result := if holds then .next (s.raise .tr) else .next s.retire

/-- TEQ (R241). -/
def execTeq (rs rt : Nat) (_code : BitVec 10) (s : State) : Result := s.trapIf (s.readGpr rs == s.readGpr rt)

/-- TNE (R242). -/
def execTne (rs rt : Nat) (_code : BitVec 10) (s : State) : Result := s.trapIf (s.readGpr rs != s.readGpr rt)

/-- TGE (R243). -/
def execTge (rs rt : Nat) (_code : BitVec 10) (s : State) : Result := s.trapIf (!signedLt (s.readGpr rs) (s.readGpr rt))

/-- TGEU (R244). -/
def execTgeu (rs rt : Nat) (_code : BitVec 10) (s : State) : Result :=
  s.trapIf (!unsignedLt (s.readGpr rs) (s.readGpr rt))

/-- TLT (R245). -/
def execTlt (rs rt : Nat) (_code : BitVec 10) (s : State) : Result := s.trapIf (signedLt (s.readGpr rs) (s.readGpr rt))

/-- TLTU (R246). -/
def execTltu (rs rt : Nat) (_code : BitVec 10) (s : State) : Result :=
  s.trapIf (unsignedLt (s.readGpr rs) (s.readGpr rt))

/-- SYSCALL (R250): Sys, always. -/
def execSyscall (_code : BitVec 20) (s : State) : Result := .next (s.raise .sys)

/-- BREAK (R251): Bp, always. -/
def execBrk (_code : BitVec 20) (s : State) : Result := .next (s.raise .bp)

/-- SYNC (R252): a no-op. -/
def execSync (s : State) : Result := .next s.retire

end Sys2Proof.Machine
end

