-- ==== Sys2Proof/Machine/Dispatch.lean ====
section
/-! DEFINITION. One arm per constructor of Instr, each one direct call of its meaning. -/

namespace Sys2Proof.Machine

/-- Stage 4 of a step, with stages 5 and 6 (40_fetch_execute.md R155 to R161): the instruction's own rule applied to the
state that stages 1 to 3 left. -/
def exec (i : Instr) (s : State) : Host.Outcome State Fault Refusal :=
  match i with
  -- R-type arithmetic, logic, shifts, compares and conditional moves (41_rtype_alu.md)
  | .add rd rs rt => Sys2Proof.Machine.execAdd rd rs rt s
  | .addu rd rs rt => Sys2Proof.Machine.execAddu rd rs rt s
  | .sub rd rs rt => Sys2Proof.Machine.execSub rd rs rt s
  | .subu rd rs rt => Sys2Proof.Machine.execSubu rd rs rt s
  | .and rd rs rt => Sys2Proof.Machine.execAnd rd rs rt s
  | .or rd rs rt => Sys2Proof.Machine.execOr rd rs rt s
  | .xor rd rs rt => Sys2Proof.Machine.execXor rd rs rt s
  | .nor rd rs rt => Sys2Proof.Machine.execNor rd rs rt s
  | .sll rd rt shamt => Sys2Proof.Machine.execSll rd rt shamt s
  | .srl rd rt shamt => Sys2Proof.Machine.execSrl rd rt shamt s
  | .sra rd rt shamt => Sys2Proof.Machine.execSra rd rt shamt s
  | .sllv rd rt rs => Sys2Proof.Machine.execSllv rd rt rs s
  | .srlv rd rt rs => Sys2Proof.Machine.execSrlv rd rt rs s
  | .srav rd rt rs => Sys2Proof.Machine.execSrav rd rt rs s
  | .slt rd rs rt => Sys2Proof.Machine.execSlt rd rs rt s
  | .sltu rd rs rt => Sys2Proof.Machine.execSltu rd rs rt s
  | .movn rd rs rt => Sys2Proof.Machine.execMovn rd rs rt s
  | .movz rd rs rt => Sys2Proof.Machine.execMovz rd rs rt s
  -- Multiply, divide and HI/LO moves (42_muldiv_hilo.md)
  | .mult rs rt => Sys2Proof.Machine.execMult rs rt s
  | .multu rs rt => Sys2Proof.Machine.execMultu rs rt s
  | .div rs rt => Sys2Proof.Machine.execDiv rs rt s
  | .divu rs rt => Sys2Proof.Machine.execDivu rs rt s
  | .mfhi rd => Sys2Proof.Machine.execMfhi rd s
  | .mflo rd => Sys2Proof.Machine.execMflo rd s
  | .mthi rs => Sys2Proof.Machine.execMthi rs s
  | .mtlo rs => Sys2Proof.Machine.execMtlo rs s
  -- Conditional traps, SYSCALL, BREAK and SYNC (43_trap_system.md)
  | .teq rs rt code => Sys2Proof.Machine.execTeq rs rt code s
  | .tne rs rt code => Sys2Proof.Machine.execTne rs rt code s
  | .tge rs rt code => Sys2Proof.Machine.execTge rs rt code s
  | .tgeu rs rt code => Sys2Proof.Machine.execTgeu rs rt code s
  | .tlt rs rt code => Sys2Proof.Machine.execTlt rs rt code s
  | .tltu rs rt code => Sys2Proof.Machine.execTltu rs rt code s
  | .syscall code => Sys2Proof.Machine.execSyscall code s
  | .brk code => Sys2Proof.Machine.execBrk code s
  | .sync => Sys2Proof.Machine.execSync s
  -- Immediate arithmetic, logic and compares (44_itype_alu.md)
  | .addi rt rs imm => Sys2Proof.Machine.execAddi rt rs imm s
  | .addiu rt rs imm => Sys2Proof.Machine.execAddiu rt rs imm s
  | .andi rt rs imm => Sys2Proof.Machine.execAndi rt rs imm s
  | .ori rt rs imm => Sys2Proof.Machine.execOri rt rs imm s
  | .xori rt rs imm => Sys2Proof.Machine.execXori rt rs imm s
  | .slti rt rs imm => Sys2Proof.Machine.execSlti rt rs imm s
  | .sltiu rt rs imm => Sys2Proof.Machine.execSltiu rt rs imm s
  | .lui rt imm => Sys2Proof.Machine.execLui rt imm s
  -- Loads and stores (45_load_store.md)
  | .lw rt base offset => Sys2Proof.Machine.execLw rt base offset s
  | .lh rt base offset => Sys2Proof.Machine.execLh rt base offset s
  | .lhu rt base offset => Sys2Proof.Machine.execLhu rt base offset s
  | .lb rt base offset => Sys2Proof.Machine.execLb rt base offset s
  | .lbu rt base offset => Sys2Proof.Machine.execLbu rt base offset s
  | .sw rt base offset => Sys2Proof.Machine.execSw rt base offset s
  | .sh rt base offset => Sys2Proof.Machine.execSh rt base offset s
  | .sb rt base offset => Sys2Proof.Machine.execSb rt base offset s
  | .lwl rt base offset => Sys2Proof.Machine.execLwl rt base offset s
  | .lwr rt base offset => Sys2Proof.Machine.execLwr rt base offset s
  | .swl rt base offset => Sys2Proof.Machine.execSwl rt base offset s
  | .swr rt base offset => Sys2Proof.Machine.execSwr rt base offset s
  | .ll rt base offset => Sys2Proof.Machine.execLl rt base offset s
  | .sc rt base offset => Sys2Proof.Machine.execSc rt base offset s
  -- Branches and jumps (46_branch_jump.md)
  | .beq rs rt offset => Sys2Proof.Machine.execBeq rs rt offset s
  | .bne rs rt offset => Sys2Proof.Machine.execBne rs rt offset s
  | .blez rs offset => Sys2Proof.Machine.execBlez rs offset s
  | .bgtz rs offset => Sys2Proof.Machine.execBgtz rs offset s
  | .bltz rs offset => Sys2Proof.Machine.execBltz rs offset s
  | .bgez rs offset => Sys2Proof.Machine.execBgez rs offset s
  | .bltzal rs offset => Sys2Proof.Machine.execBltzal rs offset s
  | .bgezal rs offset => Sys2Proof.Machine.execBgezal rs offset s
  | .j target => Sys2Proof.Machine.execJ target s
  | .jal target => Sys2Proof.Machine.execJal target s
  | .jr rs => Sys2Proof.Machine.execJr rs s
  | .jalr rd rs => Sys2Proof.Machine.execJalr rd rs s
  -- COP0 instructions (47_cop0.md)
  | .mfc0 rt rd sel => Sys2Proof.Machine.execMfc0 rt rd sel s
  | .mtc0 rt rd sel => Sys2Proof.Machine.execMtc0 rt rd sel s
  | .eret => Sys2Proof.Machine.execEret s
  | .tlbp => Sys2Proof.Machine.execTlbp s
  | .tlbr => Sys2Proof.Machine.execTlbr s
  | .tlbwi => Sys2Proof.Machine.execTlbwi s
  | .tlbwr => Sys2Proof.Machine.execTlbwr s

end Sys2Proof.Machine
end

