-- ==== Sys2Proof/Machine/Step.lean ====
section
/-! DEFINITION. One step of the fetch-execute loop (40_fetch_execute.md R150 to R165). -/

namespace Sys2Proof.Machine

/-- One step (40_fetch_execute.md R165). A stopped core takes none, so the state stays (R151; log 5). A word that matches
no instruction raises RI (30_encoding.md R124). -/
def step (s : State) : Host.Outcome State Fault Refusal :=
  match s.front with
  | .stopped => .next s
  | .raised t => .next t
  | .ready w t =>
    match decodeWord w with
    | .ok i => exec i t
    | .error _ => .next (t.raise .ri)

/-- `s` with the instruction word of `w` in memory at PC, and `running` set: the loader's and the host's `run` part in
making the next step fetch it (70_reset_and_hazards.md R435, R438, R440; log 6). -/
def State.withFetchWord (s : State) (nbits w : Nat) : State :=
  { s.setMem (s.mem.writeWord s.pc.toNat (tableWord nbits w)) with running := true }

end Sys2Proof.Machine
end

