-- ==== Sys2Proof/Machine/Control.lean ====
section
/-! DEFINITION. The host's and the platform's actions on the block (70_reset_and_hazards.md R438, R440; 60_exceptions.md
R402), each performed at a loop boundary, that is between two steps (00_scope.md R9). `step` performs none of them (log 10). -/

namespace Sys2Proof.Machine

/-- `get_reg(n)`: 0 for n above 31 (R440, 10_state.md R22). -/
def State.getReg (s : State) (n : Nat) : Word := s.readGpr n

/-- `get_cp0(reg, sel)` (R440): `CP0Read`. -/
def State.getCp0 (s : State) (reg sel : Nat) : Word := s.cp0.read reg sel

/-- `run()` (R440): its precondition is `running` = 0 (93_implementation_defined.md U24). -/
def State.run (s : State) : Result := if s.running then .refused .runWhileRunning else .next { s with running := true }

/-- `stop()` (R440): the step in progress has completed; a later `run` resumes. -/
def State.stop (s : State) : State := { s with running := false }

/-- `set_reg(n, v)` (R440): nothing for n = 0 and for n above 31. -/
def State.setReg (s : State) (n : Nat) (v : Word) : State := s.writeGpr n v

/-- `set_cp0(reg, sel, v)` (R440): `CP0Write`, with the masks and side effects of MTC0. -/
def State.hostSetCp0 (s : State) (reg sel : Nat) (v : Word) : State := s.setCp0 (s.cp0.write s.cfg.tlbSize reg sel v)

/-- `SetIPLine(n, level)`, n = 0 to 6: `Cause[8 + n] <- level` (60_exceptions.md R402). -/
def State.setIpLine (s : State) (n : Fin 7) (level : Bool) : State :=
  s.setCp0 { s.cp0 with cause := setBit s.cp0.cause (8 + n.val) level }

/-- The bytes of an image at rising addresses from `a`. -/
def Memory.writeImage : Memory → Nat → List Byte → Memory
  | m, _, [] => m
  | m, a, b :: bs => Memory.writeImage (m.write a b) (a + 1) bs

/-- The loader (R438): the image at `base`, which must fit below MEM_SIZE, then `PC <- ENTRY_PC`; before `run`, never
during it. -/
def State.loadImage (s : State) (base : Nat) (image : List Byte) : Result :=
  if s.running then .refused .loadWhileRunning
  else if base + image.length ≤ s.cfg.memSize then
    .next { s.setMem (s.mem.writeImage base image) with pc := s.cfg.entryPc }
  else .fault .imageOutsideMemory

/-- The actions of R438, R440 and R402 that change the block's state. -/
inductive HostAction where
  | load (base : Nat) (image : List Byte)
  | run
  | stop
  | setReg (n : Nat) (v : Word)
  | setCp0 (reg sel : Nat) (v : Word)
  | setBadVaddr (v : Word)
  | setIpLine (n : Fin 7) (level : Bool)
deriving DecidableEq, Repr

/-- An action performed at a loop boundary. -/
def act (a : HostAction) (s : State) : Result :=
  match a with
  | .load base image => s.loadImage base image
  | .run => s.run
  | .stop => .next s.stop
  | .setReg n v => .next (s.setReg n v)
  | .setCp0 reg sel v => .next (s.hostSetCp0 reg sel v)
  | .setBadVaddr v => .next (s.setBadVAddr v)
  | .setIpLine n level => .next (s.setIpLine n level)

end Sys2Proof.Machine
end

