-- ==== Sys2Proof/Safety.lean ====
section
/-! DEFINITION. What counts as a legal machine and a legal state (10_state.md R70), and the words the claims are made in:
what a meaning leaves unchanged, where it leaves PC, and which instructions store, jump or trap. -/

namespace Sys2Proof

/-- Every cell of a memory lies below MEM_SIZE (20_memory.md R80). -/
abbrev Machine.Memory.within (m : Machine.Memory) (memSize : Nat) : Prop := ∀ c ∈ m, c.1 < memSize

/-- The parameters are in their ranges (00_scope.md R7). -/
abbrev Config.wf (c : Config) : Prop :=
  1 ≤ c.tlbSize ∧ c.tlbSize ≤ 64 ∧ c.memSize ≤ 2 ^ 32 ∧ c.config0Reset.getLsbD 31 = true ∧
    Machine.Memory.wf c.memInit ∧ Machine.Memory.within c.memInit c.memSize

namespace Machine

/-- The invariants of the CP0 registers (10_state.md R70 b, c, d) in a machine with parameters `p`. -/
structure Cp0.Inv (p : Config) (c : Cp0) : Prop where
  /-- "Wired <= Random <= tlbSize - 1" (R70 b). -/
  wired_le_random : c.wired.toNat ≤ c.random.toNat
  random_lt : c.random.toNat < p.tlbSize
  /-- `Index[5:0] < TLB_SIZE` (R70 c). -/
  index_lt : c.indexField < p.tlbSize
  /-- `Wired < TLB_SIZE` (R70 c). -/
  wired_lt : c.wired.toNat < p.tlbSize
  /-- Index[30:6] read 0 (R34). -/
  index_zeros : c.index &&& 0x7FFFFFC0 = 0
  /-- EntryLo0[31:30] read 0 (R37). -/
  entryLo0_zeros : c.entryLo0 &&& 0xC0000000 = 0
  /-- EntryLo1[31:30] read 0 (R37). -/
  entryLo1_zeros : c.entryLo1 &&& 0xC0000000 = 0
  /-- PageMask outside [24:13] reads 0 (R39). -/
  pageMask_zeros : c.pageMask &&& 0xFE001FFF = 0
  /-- EntryHi[12:8] read 0 (R43). -/
  entryHi_zeros : c.entryHi &&& 0x00001F00 = 0
  /-- Cause outside BD, TI, IV, IP and ExcCode reads 0 (R46). -/
  cause_zeros : c.cause &&& 0x3F7F0083 = 0
  /-- PRId reads the parameter (R48). -/
  prid_const : c.prid = p.pridValue
  /-- Config0 outside K0 keeps its reset value (R50). -/
  config0_const : c.config0 &&& 0xFFFFFFF8 = p.config0Reset &&& 0xFFFFFFF8
  /-- Config1 reads the parameter (R51). -/
  config1_const : c.config1 = p.config1Value

/-- The invariants of a state at every loop boundary (10_state.md R70; memory's form is the model's own). -/
structure Inv (s : State) : Prop where
  cfg_wf : s.cfg.wf
  /-- "GPR[0] == 0 always" (R70 a), of the register and of its slot in the state. -/
  gpr_zero : s.gpr[0] = 0
  cp0_inv : s.cp0.Inv s.cfg
  /-- The array has TLB_SIZE entries (R60). -/
  tlb_length : s.tlb.length = s.cfg.tlbSize
  mem_wf : s.mem.wf
  mem_within : s.mem.within s.cfg.memSize

/-- The states at loop boundaries: the reset state of any legal machine, then any steps and any host actions between
them (00_scope.md R9, 70_reset_and_hazards.md R435). -/
inductive Reachable : State → Prop where
  | reset (c : Config) (h : c.wf) : Reachable (State.newCpu c)
  | step {s t : State} (hs : Reachable s) (h : step s = .next t) : Reachable t
  | act {s t : State} (a : HostAction) (hs : Reachable s) (h : act a s = .next t) : Reachable t

/-! ### What a meaning leaves unchanged -/

/-- `GPR[d]` holds `v` in `t` (0 for d = 0: the write is discarded) and every other register is as in `s` (10_state.md R21). -/
def WritesGpr (d : Nat) (v : Word) (s t : State) : Prop :=
  t.readGpr d = (if d = 0 then 0 else v) ∧ ∀ n, n ≠ d → t.readGpr n = s.readGpr n

/-- Every general register is unchanged. -/
def KeepsGprs (s t : State) : Prop := ∀ n, t.readGpr n = s.readGpr n

/-- HI and LO are unchanged. -/
def KeepsHiLo (s t : State) : Prop := t.hi = s.hi ∧ t.lo = s.lo

/-- Every byte of memory reads as before. -/
def KeepsMem (s t : State) : Prop := ∀ a, t.readByte a = s.readByte a

/-- Every byte of memory outside the `n` bytes from `a` reads as before. -/
def KeepsMemOutside (a n : Nat) (s t : State) : Prop := ∀ b, ¬(a ≤ b ∧ b < a + n) → t.readByte b = s.readByte b

/-- CP0 and the TLB array are unchanged. -/
def KeepsCp0Tlb (s t : State) : Prop := t.cp0 = s.cp0 ∧ t.tlb = s.tlb

/-- The running bit and the parameters are unchanged. -/
def KeepsRun (s t : State) : Prop := t.running = s.running ∧ t.cfg = s.cfg

/-- Everything but the general registers, PC, in_delay and branch_target is unchanged. -/
def OnlyGprs (s t : State) : Prop := KeepsHiLo s t ∧ KeepsMem s t ∧ KeepsCp0Tlb s t ∧ KeepsRun s t

/-- Everything but PC, in_delay and branch_target is unchanged. -/
def OnlyPc (s t : State) : Prop := KeepsGprs s t ∧ OnlyGprs s t

/-- Everything but HI, LO, PC and in_delay is unchanged. -/
def OnlyHiLo (s t : State) : Prop := KeepsGprs s t ∧ KeepsMem s t ∧ KeepsCp0Tlb s t ∧ KeepsRun s t

/-- Everything but CP0, the TLB array, PC and in_delay is unchanged. -/
def OnlyCp0Tlb (s t : State) : Prop := KeepsGprs s t ∧ KeepsHiLo s t ∧ KeepsMem s t ∧ KeepsRun s t

/-! ### Where PC goes (40_fetch_execute.md R157, R160) -/

/-- Outcome `next`: PC + 4, or the pending branch target after a delay slot; in_delay is cleared (R157). -/
def Retires (s t : State) : Prop :=
  t.pc = (if s.inDelay then s.branchTarget else s.pc + 4) ∧ t.inDelay = false

/-- Outcome `delayed(T)`: the slot at PC + 4 comes next, and then T (R160). -/
def DelaysTo (target : Word) (s t : State) : Prop :=
  t.pc = s.pc + 4 ∧ t.inDelay = true ∧ t.branchTarget = target

/-! ### Integers -/

/-- In the range of a signed 32-bit number. -/
abbrev fitsSigned (x : Int) : Prop := -2 ^ 31 ≤ x ∧ x < 2 ^ 31

/-! ### Classes of instructions -/

/-- The instructions that can store to memory (20_memory.md R81). -/
def isStore : Instr → Bool
  | .sw _ _ _ | .sh _ _ _ | .sb _ _ _ | .sc _ _ _ | .swl _ _ _ | .swr _ _ _ => true
  | _ => false

/-- The jumps and branches, whose outcome can be `delayed(T)` (40_fetch_execute.md R160). -/
def isJumpOrBranch : Instr → Bool
  | .beq _ _ _ | .bne _ _ _ | .blez _ _ | .bgtz _ _ | .bltz _ _ | .bgez _ _ | .bltzal _ _ | .bgezal _ _
  | .j _ | .jal _ | .jr _ | .jalr _ _ => true
  | _ => false

/-- The control transfers of 40_fetch_execute.md R163: jumps, branches and ERET. -/
def isControlTransfer (i : Instr) : Bool := isJumpOrBranch i || i == .eret

/-! ### Decoding by the dispatch keys (30_encoding.md R119 to R122) -/

/-- Every op 0x00 word with this `funct` decodes to `mk` of it (R119). -/
def SpecialIs (funct : Nat) (mk : Word → Instr) : Prop := ∀ w, opOf w = 0 → functOf w = funct → decodeWord w = .ok (mk w)

/-- Every word with this major opcode decodes to `mk` of it (R120). -/
def MajorIs (op : Nat) (mk : Word → Instr) : Prop := ∀ w, opOf w = op → decodeWord w = .ok (mk w)

/-- Every op 0x01 word with this `rt` decodes to `mk` of it (R121). -/
def RegimmIs (rt : Nat) (mk : Word → Instr) : Prop := ∀ w, opOf w = 1 → rtOf w = rt → decodeWord w = .ok (mk w)

/-- Every op 0x10 word with this `rs` decodes to `mk` of it (R122). -/
def Cop0Is (rs : Nat) (mk : Word → Instr) : Prop := ∀ w, opOf w = 0x10 → rsOf w = rs → decodeWord w = .ok (mk w)

/-- Every op 0x10, rs 0x10 word with this `funct` decodes to `i` (R122). -/
def CoIs (funct : Nat) (i : Instr) : Prop :=
  ∀ w, opOf w = 0x10 → rsOf w = 0x10 → functOf w = funct → decodeWord w = .ok i

end Machine

end Sys2Proof
end

