-- ==== Sys2Proof/Certificates/Slice0/Obligations.lean ====
section
/-! DEFINITION. The statements for the provers, from the numbered rules of spec/. OBLIGATIONS.json lists them. -/

open Sys2Proof Sys2Proof.Machine

/-! ### Encoding (30_encoding.md) -/

/-- Decoding the word, or the bytes, of a well-formed instruction gives it back (R110 to R122). The encoder is the
model's: it writes 0 in the fields an instruction ignores (log 12). -/
def Obligations.DecodeOfEncodeIsTheInstruction : Prop :=
  ∀ i : Instr, i.wellFormed = true →
    decodeWord (encode i) = .ok i ∧ ∀ rest : List Byte, decode (encodeBytes i ++ rest) = .ok (i, rest)

/-- A decoded word matches its own row of the opcode table, and its operands fit their fields (R117). -/
def Obligations.DecodedWordMatchesItsRow : Prop :=
  ∀ (w : Word) (i : Instr), decodeWord w = .ok i →
    i.wellFormed = true ∧ w &&& i.row.mask = i.row.value ∧ i.row ∈ opcodeRows

/-- A word is a reserved instruction exactly when no row of the table matches it; executing one raises RI, and the state
it is raised in is the one stages 1 to 3 left (R124). -/
def Obligations.ReservedWordsAreThoseOfNoRow : Prop :=
  (∀ w : Word, (∃ e, decodeWord w = .error e) ↔ ∀ r ∈ opcodeRows, w &&& r.mask ≠ r.value) ∧
  ∀ (s t : State) (w : Word), s.front = .ready w t → (∀ r ∈ opcodeRows, w &&& r.mask ≠ r.value) →
    step s = .next (t.raise .ri)

/-- The encoder gives back every bit the decoder reads, and words that agree on those bits decode alike: ignored fields
are "neither required to be zero nor checked" (R117, D18). -/
def Obligations.OnlyRowAndOperandBitsAreRead : Prop :=
  ∀ (w : Word) (i : Instr), decodeWord w = .ok i →
    encode i = w &&& (i.row.mask ||| i.operandMask) ∧
    ∀ w' : Word, w' &&& (i.row.mask ||| i.operandMask) = w &&& (i.row.mask ||| i.operandMask) → decodeWord w' = .ok i

/-- Words the spec writes out, and what they are (S1 to S5 of 95_test_vectors.md, and vectors of each family). -/
def Obligations.WordsTheSpecWritesOutDecode : Prop :=
  decodeTableWord 32 0x012A4020 = some (.add 8 9 10) ∧ decodeTableWord 32 0x21280005 = some (.addi 8 9 5) ∧
  decodeTableWord 32 0x08000010 = some (.j 0x10) ∧ decodeTableWord 32 0x40876000 = some (.mtc0 7 12 0) ∧
  decodeTableWord 32 0x40056000 = some (.mfc0 5 12 0) ∧ decodeTableWord 32 0x42000018 = some .eret ∧
  decodeTableWord 32 0x00850018 = some (.mult 4 5) ∧ decodeTableWord 32 0x0085FFF4 = some (.teq 4 5 0x3FF) ∧
  decodeTableWord 32 0xAC85FF04 = some (.sw 5 4 0xFF04) ∧ decodeTableWord 32 0x04910004 = some (.bgezal 4 4) ∧
  decodeTableWord 32 0x42200018 = none ∧ decodeTableWord 32 0xFFFFFFFF = none

/-! ### The step (40_fetch_execute.md) -/

/-- When the bytes at PC decode to an instruction and no interrupt is pending after the tick, the step is `exec` of it in
the state after stage 2; the state after stage 2 is the state before with Count and Random (and on a match Cause) moved. -/
def Obligations.StepExecutesTheInstructionAtPc : Prop :=
  ∀ (s : State) (i : Instr) (rest : List Byte), s.running = true → s.admits s.pc 4 →
    decode [s.readByte s.pc.toNat, s.readByte (s.pc.toNat + 1), s.readByte (s.pc.toNat + 2), s.readByte (s.pc.toNat + 3)]
      = .ok (i, rest) →
    s.tick.cp0.pendingInterrupt = false → step s = exec i s.tick ∧ s.tick = { s with cp0 := s.tick.cp0 }

/-- A failed fetch, misaligned or at or beyond MEM_SIZE, ends the step in AdEL with BadVAddr = PC, whether or not an
interrupt is pending. Stages 2 to 6 do not happen: Count, Random, TI, IP7 and every other bit and register of CP0 but
those of the address error keep their values (R152). -/
def Obligations.FailedFetchTakesAdel : Prop :=
  ∀ s : State, s.running = true → (s.pc.toNat % 4 ≠ 0 ∨ s.cfg.memSize ≤ s.pc.toNat + 3) →
    ∃ t, step s = .next t ∧ t.cp0.badVAddr = s.pc ∧ t.cp0.excCode = 4 ∧ t.cp0.bd = s.inDelay ∧
      t.cp0.epc = (if s.inDelay then s.pc - 4 else s.pc) ∧ t.cp0.exl = true ∧ t.pc = s.cp0.vectorFor .adel ∧
      t.inDelay = false ∧ t.cp0.count = s.cp0.count ∧ t.cp0.random = s.cp0.random ∧
      (∀ j, j < 2 ∨ (6 < j ∧ j ≠ 31) → t.cp0.cause.getLsbD j = s.cp0.cause.getLsbD j) ∧
      (∀ j, j ≠ 1 → t.cp0.status.getLsbD j = s.cp0.status.getLsbD j) ∧
      { t.cp0 with cause := s.cp0.cause, status := s.cp0.status, epc := s.cp0.epc, badVAddr := s.cp0.badVAddr } = s.cp0 ∧
      t = s.addressError .adel s.pc ∧
      t.running = (if ExcCode.adel ∈ s.cfg.haltCodes then false else true) ∧
      KeepsGprs s t ∧ KeepsHiLo s t ∧ KeepsMem s t ∧ t.tlb = s.tlb ∧ t.cfg = s.cfg

/-- An interrupt pending after the tick ends the step before the fetched word is decoded: Int is raised with the old PC
in the state stage 2 left, and the word has no effect: outside what the raise writes, CP0 is as stage 2 left it, and
everything else is as it was (R154). -/
def Obligations.PendingInterruptIsTakenBeforeExecution : Prop :=
  ∀ (s : State) (w : Word), s.running = true → s.load32 s.pc = some w → s.tick.cp0.pendingInterrupt = true →
    ∃ t, step s = .next t ∧ t.cp0.excCode = 0 ∧ t.cp0.bd = s.inDelay ∧
      t.cp0.epc = (if s.inDelay then s.pc - 4 else s.pc) ∧ t.cp0.exl = true ∧ t.cp0.ip = s.tick.cp0.ip ∧
      t.cp0.badVAddr = s.cp0.badVAddr ∧ t.pc = s.cp0.vectorBase + (if s.cp0.iv then 0x200 else 0x180) ∧
      t.inDelay = false ∧ t.cp0.count = s.cp0.count + 1 ∧
      s.tick.cp0 = s.cp0.tick.randomStep s.cfg.tlbSize ∧
      (∀ j, j < 2 ∨ (6 < j ∧ j ≠ 31) → t.cp0.cause.getLsbD j = s.tick.cp0.cause.getLsbD j) ∧
      (∀ j, j ≠ 1 → t.cp0.status.getLsbD j = s.cp0.status.getLsbD j) ∧
      { t.cp0 with cause := s.tick.cp0.cause, status := s.tick.cp0.status, epc := s.tick.cp0.epc } = s.tick.cp0 ∧
      t = s.tick.raise .int ∧
      t.running = (if ExcCode.int ∈ s.cfg.haltCodes then false else true) ∧
      KeepsGprs s t ∧ KeepsHiLo s t ∧ KeepsMem s t ∧ t.tlb = s.tlb ∧ t.cfg = s.cfg

/-! ### Exceptions (60_exceptions.md) -/

/-- The raise, whole: what it writes, where PC goes, and that nothing else of the state changes, whatever EXL was (R388,
R395, R396); an address error is that raise after `BadVAddr <- addr` (20_memory.md R90). -/
def Obligations.ExceptionEntrySavesAndRedirects : Prop :=
  ∀ (s : State) (code : ExcCode),
    (s.raise code).cp0.excCode = excNumber code ∧
    (s.raise code).cp0.bd = s.inDelay ∧
    (s.raise code).cp0.epc = (if s.inDelay then s.pc - 4 else s.pc) ∧
    (s.raise code).cp0.exl = true ∧
    (∀ j, j < 2 ∨ (6 < j ∧ j ≠ 31) → (s.raise code).cp0.cause.getLsbD j = s.cp0.cause.getLsbD j) ∧
    (∀ j, j ≠ 1 → (s.raise code).cp0.status.getLsbD j = s.cp0.status.getLsbD j) ∧
    { (s.raise code).cp0 with cause := s.cp0.cause, status := s.cp0.status, epc := s.cp0.epc } = s.cp0 ∧
    (s.raise code).pc = s.cp0.vectorFor code ∧ (s.raise code).inDelay = false ∧
    (s.raise code).running = (if code ∈ s.cfg.haltCodes then false else s.running) ∧
    KeepsGprs s (s.raise code) ∧ KeepsHiLo s (s.raise code) ∧ KeepsMem s (s.raise code) ∧
    (s.raise code).tlb = s.tlb ∧ (s.raise code).cfg = s.cfg ∧
    ∀ a : Word, (s.addressError code a).cp0.badVAddr = a ∧
      { (s.addressError code a).cp0 with badVAddr := s.cp0.badVAddr } = (s.raise code).cp0 ∧
      { (s.addressError code a) with cp0 := s.cp0 } = { (s.raise code) with cp0 := s.cp0 }

/-- `VectorFor` (R392): the four rows of its table, with EBase compared and added whole. -/
def Obligations.VectorFollowsEbaseAndIv : Prop :=
  ∀ (c : Cp0) (code : ExcCode),
    (c.ebase.msb = true ∧ c.ebase < 0xBFC00000#32 → code = .int ∧ c.cause.getLsbD 23 = true →
      c.vectorFor code = c.ebase + 0x200) ∧
    (c.ebase.msb = true ∧ c.ebase < 0xBFC00000#32 → ¬(code = .int ∧ c.cause.getLsbD 23 = true) →
      c.vectorFor code = c.ebase + 0x180) ∧
    (¬(c.ebase.msb = true ∧ c.ebase < 0xBFC00000#32) → code = .int ∧ c.cause.getLsbD 23 = true →
      c.vectorFor code = 0xBFC00200) ∧
    (¬(c.ebase.msb = true ∧ c.ebase < 0xBFC00000#32) → ¬(code = .int ∧ c.cause.getLsbD 23 = true) →
      c.vectorFor code = 0xBFC00180)

/-- A step never sets `running`, and clears it only by an exception whose code is in HALT_CODES, after the raise (R166,
R396). A stopped core takes no step (R151); that `step` then answers the same state is the model's form of it (log 5). -/
def Obligations.OnlyFatalExceptionsStopTheCore : Prop :=
  (∀ s : State, s.running = false → step s = .next s) ∧
  ∀ s t : State, step s = .next t →
    (t.running = true → s.running = true) ∧
    (s.running = true → t.running = false →
      ∃ code ∈ s.cfg.haltCodes, t.cp0.excCode = excNumber code ∧ t.cp0.exl = true ∧ t.pc = s.cp0.vectorFor code)

/-- `PendingInterrupt()` (R400). -/
def Obligations.PendingInterruptCondition : Prop :=
  ∀ c : Cp0, c.pendingInterrupt = true ↔
    c.status.getLsbD 0 = true ∧ c.status.getLsbD 1 = false ∧ c.status.getLsbD 2 = false ∧
      ∃ n < 8, c.cause.getLsbD (8 + n) = true ∧ c.status.getLsbD (8 + n) = true

/-! ### The timer and Random -/

/-- `Tick(1)` (R404): Count moves by one modulo 2^32; TI and IP7 are set on the exact tick Count equals a non-zero Compare,
and no other bit or register changes. -/
def Obligations.TickCountsAndFiresOnTheExactMatch : Prop :=
  ∀ c : Cp0,
    c.tick.count.toNat = (c.count.toNat + 1) % 2 ^ 32 ∧
    (c.compare ≠ 0 → c.tick.count = c.compare →
      c.tick.ti = true ∧ c.tick.cause.getLsbD 15 = true ∧
      ∀ j, j ≠ 30 → j ≠ 15 → c.tick.cause.getLsbD j = c.cause.getLsbD j) ∧
    (¬(c.compare ≠ 0 ∧ c.tick.count = c.compare) → c.tick.cause = c.cause) ∧
    { c.tick with count := c.count, cause := c.cause } = c

/-- `RandomStep()` (47_cop0.md R360): down by one, from Wired (or below) to TLB_SIZE - 1, so that
Wired <= Random <= TLB_SIZE - 1 is kept; nothing else changes. -/
def Obligations.RandomStepCyclesAboveWired : Prop :=
  ∀ (c : Cp0) (n : Nat), 1 ≤ n → n ≤ 64 →
    (c.random.toNat ≤ c.wired.toNat → (c.randomStep n).random.toNat = n - 1) ∧
    (c.wired.toNat < c.random.toNat → (c.randomStep n).random.toNat = c.random.toNat - 1) ∧
    (c.wired.toNat < n → c.random.toNat < n →
      c.wired.toNat ≤ (c.randomStep n).random.toNat ∧ (c.randomStep n).random.toNat ≤ n - 1) ∧
    { c.randomStep n with random := c.random } = c

/-! ### Reset and invariants -/

/-- What `new_cpu` leaves (70_reset_and_hazards.md R431 to R434): the zeros, Random, the parameter registers, the
TLB, the memory. 10_state.md R75 sums them up; the values are the spec's decision D8. That MEM_INIT is the memory
`new_cpu` is given, where R434 lets the loader determine it, is the model's reading (log 21, DEDUCED); so is PC = 0 by
R431 and R75 against the ENTRY_PC of R23 (log 3, DEDUCED). That the parameters are a field of the state is its own (log 1,
DESIGN CHOICE). -/
def Obligations.NewCpuIsTheResetState : Prop :=
  ∀ c : Config,
    (∀ n, (State.newCpu c).readGpr n = 0) ∧ (State.newCpu c).hi = 0 ∧ (State.newCpu c).lo = 0 ∧
    (State.newCpu c).pc = 0 ∧ (State.newCpu c).inDelay = false ∧ (State.newCpu c).branchTarget = 0 ∧
    (State.newCpu c).running = false ∧
    (State.newCpu c).getCp0 1 0 = BitVec.ofNat 32 (c.tlbSize - 1) ∧ (State.newCpu c).getCp0 15 0 = c.pridValue ∧
    (State.newCpu c).getCp0 16 0 = c.config0Reset ∧ (State.newCpu c).getCp0 16 1 = c.config1Value ∧
    (∀ reg sel, (reg, sel) ∉ [(1, 0), (15, 0), (16, 0), (16, 1)] → (State.newCpu c).getCp0 reg sel = 0) ∧
    (State.newCpu c).tlb.length = c.tlbSize ∧ (∀ e ∈ (State.newCpu c).tlb, e = TlbEntry.zero) ∧
    (State.newCpu c).mem = c.memInit ∧ (State.newCpu c).cfg = c

/-- The reset state of every legal machine, and `State.reset`, satisfy the invariants (10_state.md R70, R75). -/
def Obligations.ResetSatisfiesTheInvariants : Prop :=
  (∀ c : Config, c.wf → Inv (State.newCpu c)) ∧ Inv State.reset

/-- Every step keeps the invariants, from every state that has them (10_state.md R70). -/
def Obligations.EveryStepKeepsTheInvariants : Prop :=
  ∀ s t : State, Inv s → step s = .next t → Inv t

/-- Every host action keeps the invariants (10_state.md R70, 70_reset_and_hazards.md R440). -/
def Obligations.EveryHostActionKeepsTheInvariants : Prop :=
  ∀ (a : HostAction) (s t : State), Inv s → act a s = .next t → Inv t

/-- The invariants hold at every loop boundary, whatever program has run and whatever the host has done (10_state.md R70). -/
def Obligations.ReachableStatesSatisfyTheInvariants : Prop :=
  ∀ s : State, Reachable s → Inv s

/-- in_delay = 1 only if the step just finished was a jump or a taken branch outside a delay slot, and then PC is at its
slot (10_state.md R70 e, R25). -/
def Obligations.InDelayOnlyAfterAJumpOrTakenBranch : Prop :=
  ∀ s t : State, s.running = true → step s = .next t → t.inDelay = true →
    s.inDelay = false ∧ t.pc = s.pc + 4 ∧
      ∃ w u i, s.front = .ready w u ∧ decodeWord w = .ok i ∧ isJumpOrBranch i = true

/-- How every instruction moves PC and in_delay (40_fetch_execute.md R157 to R161) and that it is precise (R162, R164):
outcome `next` goes to PC + 4, from a delay slot to branch_target; `delayed(T)` is a jump's or branch's alone and comes
only outside a delay slot; `immediate(T)` is ERET's alone; an exception records EPC and BD of its own instruction, goes to
the vector, and leaves every general register, HI, LO, memory and the TLB as they were. -/
def Obligations.EveryInstructionEndsInOneOfFourOutcomes : Prop :=
  ∀ (i : Instr) (s t : State), exec i s = .next t →
    Retires s t ∨
    (isJumpOrBranch i = true ∧ s.inDelay = false ∧ t.pc = s.pc + 4 ∧ t.inDelay = true) ∨
    (i = .eret ∧ s.inDelay = false ∧ t.pc = s.cp0.eretTarget ∧ t.inDelay = false) ∨
    ∃ code, code ∈ [ExcCode.adel, .ades, .sys, .bp, .ov, .tr] ∧ t.cp0.excCode = excNumber code ∧ t.cp0.bd = s.inDelay ∧
      t.cp0.epc = (if s.inDelay then s.pc - 4 else s.pc) ∧ t.cp0.exl = true ∧ t.pc = s.cp0.vectorFor code ∧
      t.inDelay = false ∧ KeepsGprs s t ∧ KeepsHiLo s t ∧ KeepsMem s t ∧ t.tlb = s.tlb

/-! ### Whole-machine rules -/

/-- No step and no host action changes the parameters, PRId, Config1, or Config0 outside K0 (10_state.md R48, R50, R51).
That the parameters are a constant field `cfg` of the state is the model's own (log 1, DESIGN CHOICE), from 00_scope.md R7
and 10_state.md R20, by which they are configuration and no state. -/
def Obligations.ReadOnlyRegistersAndParametersNeverChange : Prop :=
  (∀ s t : State, step s = .next t → t.cfg = s.cfg ∧ t.cp0.prid = s.cp0.prid ∧ t.cp0.config1 = s.cp0.config1 ∧
    ∀ j, 3 ≤ j → t.cp0.config0.getLsbD j = s.cp0.config0.getLsbD j) ∧
  (∀ (a : HostAction) (s t : State), act a s = .next t →
    t.cfg = s.cfg ∧ t.cp0.prid = s.cp0.prid ∧ t.cp0.config1 = s.cp0.config1 ∧
    ∀ j, 3 ≤ j → t.cp0.config0.getLsbD j = s.cp0.config0.getLsbD j)

/-- The registers with no hardware writer (10_state.md R33, column "hardware writes": Context, Wired, Compare, EBase,
Config0, LLAddr, WatchLo, WatchHi, XContext, ErrorEPC), and Status.ERL from 0 to 1 (R45), change in a step only by an
MTC0 that names the register. -/
def Obligations.SoftwareRegistersChangeOnlyByMtc0 : Prop :=
  ∀ s t : State, step s = .next t →
    (∀ reg sel, (reg, sel) ∈ [(4, 0), (6, 0), (11, 0), (15, 1), (16, 0), (17, 0), (18, 0), (19, 0), (20, 0), (30, 0)] →
      t.cp0.read reg sel ≠ s.cp0.read reg sel →
      ∃ w u rt, s.front = .ready w u ∧ decodeWord w = .ok (.mtc0 rt reg sel)) ∧
    (s.cp0.erl = false → t.cp0.erl = true →
      ∃ w u rt, s.front = .ready w u ∧ decodeWord w = .ok (.mtc0 rt 12 0))

/-- A step changes a byte of memory only by executing a store, never by a fetch, a load, an interrupt or an exception
(20_memory.md R81, R86). -/
def Obligations.OnlyStoresChangeMemory : Prop :=
  ∀ (s t : State) (a : Nat), step s = .next t → t.readByte a ≠ s.readByte a →
    ∃ w u i, s.front = .ready w u ∧ decodeWord w = .ok i ∧ isStore i = true

/-- An instruction other than the four TLB ones neither changes the TLB nor depends on it: with any other array in its place
it does the same (10_state.md R63; 20_memory.md R95: "No address translation"). -/
def Obligations.OnlyTlbInstructionsUseTheTlb : Prop :=
  ∀ (i : Instr) (s : State) (other : List TlbEntry), i ∉ [.tlbp, .tlbr, .tlbwi, .tlbwr] →
    (∀ t, exec i s = .next t → t.tlb = s.tlb ∧ exec i (s.setTlb other) = .next (t.setTlb other)) ∧
    ∀ r, exec i s = .refused r → exec i (s.setTlb other) = .refused r

/-- No step faults, and a step is refused only for a jump, branch or ERET in a delay slot (40_fetch_execute.md R163, the
refusal is the model's form of it, log 9; 70_reset_and_hazards.md R449: "There are no others"). -/
def Obligations.StepStopsOnlyOnATransferInADelaySlot : Prop :=
  ∀ s : State, (∀ r, step s ≠ .fault r) ∧
    ∀ r, step s = .refused r → r = .controlTransferInDelaySlot ∧ s.inDelay = true ∧
      ∃ w u i, s.front = .ready w u ∧ decodeWord w = .ok i ∧ isControlTransfer i = true

/-- J, JAL, JR, JALR, a taken branch and ERET with in_delay = 1 are refused; a branch not taken there has outcome `next`
and BLTZAL and BGEZAL still write their link (40_fetch_execute.md R163). That a refused transfer writes no link either is
the model's reading (log 9). -/
def Obligations.TransferInADelaySlotIsRefused : Prop :=
  ∀ s : State, s.inDelay = true →
    (∀ i, i = .eret ∨ (∃ x, i = .j x ∨ i = .jal x) ∨ (∃ rd rs, i = .jr rs ∨ i = .jalr rd rs) →
      exec i s = .refused .controlTransferInDelaySlot) ∧
    (∀ rs rt off,
      exec (.beq rs rt off) s =
        (if s.readGpr rs = s.readGpr rt then .refused .controlTransferInDelaySlot else .next s.retire) ∧
      exec (.bne rs rt off) s =
        (if s.readGpr rs ≠ s.readGpr rt then .refused .controlTransferInDelaySlot else .next s.retire)) ∧
    (∀ rs off,
      exec (.blez rs off) s =
        (if (s.readGpr rs).toInt ≤ 0 then .refused .controlTransferInDelaySlot else .next s.retire) ∧
      exec (.bgtz rs off) s =
        (if (s.readGpr rs).toInt > 0 then .refused .controlTransferInDelaySlot else .next s.retire) ∧
      exec (.bltz rs off) s =
        (if (s.readGpr rs).toInt < 0 then .refused .controlTransferInDelaySlot else .next s.retire) ∧
      exec (.bgez rs off) s =
        (if (s.readGpr rs).toInt ≥ 0 then .refused .controlTransferInDelaySlot else .next s.retire) ∧
      exec (.bltzal rs off) s =
        (if (s.readGpr rs).toInt < 0 then .refused .controlTransferInDelaySlot
          else .next (s.writeGpr 31 (s.pc + 8)).retire) ∧
      exec (.bgezal rs off) s =
        (if (s.readGpr rs).toInt ≥ 0 then .refused .controlTransferInDelaySlot
          else .next (s.writeGpr 31 (s.pc + 8)).retire)) ∧
    Retires s s.retire ∧ OnlyPc s s.retire ∧
    Retires s (s.writeGpr 31 (s.pc + 8)).retire ∧ WritesGpr 31 (s.pc + 8) s (s.writeGpr 31 (s.pc + 8)).retire ∧
    OnlyGprs s (s.writeGpr 31 (s.pc + 8)).retire

/-! ### R-type arithmetic, logic, shifts, compares, moves (41_rtype_alu.md) -/

/-- ADD and SUB (R182, R184): the exact signed result where it fits 32 bits, else Ov with rd not written; rd = 0 discards
the result but the trap remains. That the overflow predicates are this is the spec's own inference (R180, R181: "It is true
exactly when the exact sum signed(a) + signed(b) lies outside -2^31 .. 2^31-1"). -/
def Obligations.AddAndSubGiveTheExactResultOrTakeOv : Prop :=
  SpecialIs 0x20 (fun w => .add (rdOf w) (rsOf w) (rtOf w)) ∧ SpecialIs 0x22 (fun w => .sub (rdOf w) (rsOf w) (rtOf w)) ∧
  ∀ (s : State) (rd rs rt : Nat), rd < 32 →
    (fitsSigned ((s.readGpr rs).toInt + (s.readGpr rt).toInt) →
      ∃ t, exec (.add rd rs rt) s = .next t ∧ (rd ≠ 0 → (t.readGpr rd).toInt = (s.readGpr rs).toInt + (s.readGpr rt).toInt) ∧
        WritesGpr rd (s.readGpr rs + s.readGpr rt) s t ∧ OnlyGprs s t ∧ Retires s t) ∧
    (¬fitsSigned ((s.readGpr rs).toInt + (s.readGpr rt).toInt) → exec (.add rd rs rt) s = .next (s.raise .ov)) ∧
    (fitsSigned ((s.readGpr rs).toInt - (s.readGpr rt).toInt) →
      ∃ t, exec (.sub rd rs rt) s = .next t ∧ (rd ≠ 0 → (t.readGpr rd).toInt = (s.readGpr rs).toInt - (s.readGpr rt).toInt) ∧
        WritesGpr rd (s.readGpr rs - s.readGpr rt) s t ∧ OnlyGprs s t ∧ Retires s t) ∧
    (¬fitsSigned ((s.readGpr rs).toInt - (s.readGpr rt).toInt) → exec (.sub rd rs rt) s = .next (s.raise .ov))

/-- ADDU and SUBU (R183, R185): modulo 2^32, no trap. -/
def Obligations.UnsignedAddAndSubWrap : Prop :=
  SpecialIs 0x21 (fun w => .addu (rdOf w) (rsOf w) (rtOf w)) ∧ SpecialIs 0x23 (fun w => .subu (rdOf w) (rsOf w) (rtOf w)) ∧
  ∀ (s : State) (rd rs rt : Nat), rd < 32 →
    (∃ t, exec (.addu rd rs rt) s = .next t ∧
      WritesGpr rd (BitVec.ofNat 32 (((s.readGpr rs).toNat + (s.readGpr rt).toNat) % 2 ^ 32)) s t ∧
      OnlyGprs s t ∧ Retires s t) ∧
    (∃ t, exec (.subu rd rs rt) s = .next t ∧
      WritesGpr rd (BitVec.ofNat 32 ((2 ^ 32 + (s.readGpr rs).toNat - (s.readGpr rt).toNat) % 2 ^ 32)) s t ∧
      OnlyGprs s t ∧ Retires s t)

/-- AND, OR, XOR, NOR (R186 to R189), bit by bit. -/
def Obligations.RegisterLogicIsBitwise : Prop :=
  SpecialIs 0x24 (fun w => .and (rdOf w) (rsOf w) (rtOf w)) ∧ SpecialIs 0x25 (fun w => .or (rdOf w) (rsOf w) (rtOf w)) ∧
  SpecialIs 0x26 (fun w => .xor (rdOf w) (rsOf w) (rtOf w)) ∧ SpecialIs 0x27 (fun w => .nor (rdOf w) (rsOf w) (rtOf w)) ∧
  ∀ (s : State) (rd rs rt : Nat), rd < 32 →
    (∃ t v, exec (.and rd rs rt) s = .next t ∧ WritesGpr rd v s t ∧ OnlyGprs s t ∧ Retires s t ∧
      ∀ j < 32, v.getLsbD j = ((s.readGpr rs).getLsbD j && (s.readGpr rt).getLsbD j)) ∧
    (∃ t v, exec (.or rd rs rt) s = .next t ∧ WritesGpr rd v s t ∧ OnlyGprs s t ∧ Retires s t ∧
      ∀ j < 32, v.getLsbD j = ((s.readGpr rs).getLsbD j || (s.readGpr rt).getLsbD j)) ∧
    (∃ t v, exec (.xor rd rs rt) s = .next t ∧ WritesGpr rd v s t ∧ OnlyGprs s t ∧ Retires s t ∧
      ∀ j < 32, v.getLsbD j = ((s.readGpr rs).getLsbD j != (s.readGpr rt).getLsbD j)) ∧
    (∃ t v, exec (.nor rd rs rt) s = .next t ∧ WritesGpr rd v s t ∧ OnlyGprs s t ∧ Retires s t ∧
      ∀ j < 32, v.getLsbD j = !((s.readGpr rs).getLsbD j || (s.readGpr rt).getLsbD j))

/-- SLL, SRL, SRA (R192 to R194), bit by bit: zeros, zeros, and copies of bit 31 enter. -/
def Obligations.ImmediateShiftsMoveBits : Prop :=
  SpecialIs 0x00 (fun w => .sll (rdOf w) (rtOf w) (shamtOf w)) ∧ SpecialIs 0x02 (fun w => .srl (rdOf w) (rtOf w) (shamtOf w)) ∧
  SpecialIs 0x03 (fun w => .sra (rdOf w) (rtOf w) (shamtOf w)) ∧
  ∀ (s : State) (rd rt n : Nat), rd < 32 → n < 32 →
    (∃ t v, exec (.sll rd rt n) s = .next t ∧ WritesGpr rd v s t ∧ OnlyGprs s t ∧ Retires s t ∧
      ∀ j < 32, v.getLsbD j = if n ≤ j then (s.readGpr rt).getLsbD (j - n) else false) ∧
    (∃ t v, exec (.srl rd rt n) s = .next t ∧ WritesGpr rd v s t ∧ OnlyGprs s t ∧ Retires s t ∧
      ∀ j < 32, v.getLsbD j = if j + n < 32 then (s.readGpr rt).getLsbD (j + n) else false) ∧
    (∃ t v, exec (.sra rd rt n) s = .next t ∧ WritesGpr rd v s t ∧ OnlyGprs s t ∧ Retires s t ∧
      ∀ j < 32, v.getLsbD j = (s.readGpr rt).getLsbD (min 31 (j + n)))

/-- SLLV, SRLV, SRAV (R191, R195 to R197): as the immediate shifts, by the low 5 bits of GPR[rs]. -/
def Obligations.VariableShiftsUseTheLowFiveBits : Prop :=
  SpecialIs 0x04 (fun w => .sllv (rdOf w) (rtOf w) (rsOf w)) ∧ SpecialIs 0x06 (fun w => .srlv (rdOf w) (rtOf w) (rsOf w)) ∧
  SpecialIs 0x07 (fun w => .srav (rdOf w) (rtOf w) (rsOf w)) ∧
  ∀ (s : State) (rd rt rs : Nat), rd < 32 →
    (∃ t v, exec (.sllv rd rt rs) s = .next t ∧ WritesGpr rd v s t ∧ OnlyGprs s t ∧ Retires s t ∧
      ∀ j < 32, v.getLsbD j = if (s.readGpr rs).toNat % 32 ≤ j then (s.readGpr rt).getLsbD (j - (s.readGpr rs).toNat % 32) else false) ∧
    (∃ t v, exec (.srlv rd rt rs) s = .next t ∧ WritesGpr rd v s t ∧ OnlyGprs s t ∧ Retires s t ∧
      ∀ j < 32, v.getLsbD j = if j + (s.readGpr rs).toNat % 32 < 32 then (s.readGpr rt).getLsbD (j + (s.readGpr rs).toNat % 32) else false) ∧
    (∃ t v, exec (.srav rd rt rs) s = .next t ∧ WritesGpr rd v s t ∧ OnlyGprs s t ∧ Retires s t ∧
      ∀ j < 32, v.getLsbD j = (s.readGpr rt).getLsbD (min 31 (j + (s.readGpr rs).toNat % 32)))

/-- SLT, SLTU, SLTI, SLTIU (R198, R199; 44_itype_alu.md R266, R267): 0 or 1 by the exact comparison. -/
def Obligations.SetOnLessThanIsExact : Prop :=
  SpecialIs 0x2A (fun w => .slt (rdOf w) (rsOf w) (rtOf w)) ∧ SpecialIs 0x2B (fun w => .sltu (rdOf w) (rsOf w) (rtOf w)) ∧
  MajorIs 0x0A (fun w => .slti (rtOf w) (rsOf w) (immOf w)) ∧ MajorIs 0x0B (fun w => .sltiu (rtOf w) (rsOf w) (immOf w)) ∧
  ∀ (s : State) (d rs rt : Nat) (imm : BitVec 16), d < 32 →
    (∃ t, exec (.slt d rs rt) s = .next t ∧ OnlyGprs s t ∧ Retires s t ∧
      WritesGpr d (if (s.readGpr rs).toInt < (s.readGpr rt).toInt then 1 else 0) s t) ∧
    (∃ t, exec (.sltu d rs rt) s = .next t ∧ OnlyGprs s t ∧ Retires s t ∧
      WritesGpr d (if (s.readGpr rs).toNat < (s.readGpr rt).toNat then 1 else 0) s t) ∧
    (∃ t, exec (.slti d rs imm) s = .next t ∧ OnlyGprs s t ∧ Retires s t ∧
      WritesGpr d (if (s.readGpr rs).toInt < imm.toInt then 1 else 0) s t) ∧
    (∃ t, exec (.sltiu d rs imm) s = .next t ∧ OnlyGprs s t ∧ Retires s t ∧
      WritesGpr d (if (s.readGpr rs).toNat < (if imm.msb then imm.toNat + 0xFFFF0000 else imm.toNat) then 1 else 0) s t)

/-- MOVN and MOVZ (R200, R201): when the condition fails nothing is written. -/
def Obligations.ConditionalMovesTestRt : Prop :=
  SpecialIs 0x0B (fun w => .movn (rdOf w) (rsOf w) (rtOf w)) ∧ SpecialIs 0x0A (fun w => .movz (rdOf w) (rsOf w) (rtOf w)) ∧
  ∀ (s : State) (rd rs rt : Nat), rd < 32 →
    ∃ t u, exec (.movn rd rs rt) s = .next t ∧ exec (.movz rd rs rt) s = .next u ∧
      OnlyGprs s t ∧ OnlyGprs s u ∧ Retires s t ∧ Retires s u ∧
      (s.readGpr rt ≠ 0 → WritesGpr rd (s.readGpr rs) s t ∧ KeepsGprs s u) ∧
      (s.readGpr rt = 0 → KeepsGprs s t ∧ WritesGpr rd (s.readGpr rs) s u)

/-! ### Multiply, divide, HI and LO (42_muldiv_hilo.md) -/

/-- MULT and MULTU (R221, R222): HI ++ LO is the exact 64-bit product. -/
def Obligations.ProductInHiLoIsExact : Prop :=
  SpecialIs 0x18 (fun w => .mult (rsOf w) (rtOf w)) ∧ SpecialIs 0x19 (fun w => .multu (rsOf w) (rtOf w)) ∧
  ∀ (s : State) (rs rt : Nat),
    (∃ t, exec (.mult rs rt) s = .next t ∧ (t.hi ++ t.lo).toInt = (s.readGpr rs).toInt * (s.readGpr rt).toInt ∧
      OnlyHiLo s t ∧ Retires s t) ∧
    (∃ t, exec (.multu rs rt) s = .next t ∧ (t.hi ++ t.lo).toNat = (s.readGpr rs).toNat * (s.readGpr rt).toNat ∧
      OnlyHiLo s t ∧ Retires s t)

/-- DIV and DIVU (R223 to R225): both 0 for a zero divisor; the wrapped quotient for 0x80000000 / 0xFFFFFFFF signed; else
quotient toward zero in LO and remainder (for DIV with the dividend's sign) in HI. -/
def Obligations.DivideGivesQuotientAndRemainder : Prop :=
  SpecialIs 0x1A (fun w => .div (rsOf w) (rtOf w)) ∧ SpecialIs 0x1B (fun w => .divu (rsOf w) (rtOf w)) ∧
  ∀ (s : State) (rs rt : Nat),
    (∃ t, exec (.div rs rt) s = .next t ∧ OnlyHiLo s t ∧ Retires s t ∧
      (s.readGpr rt = 0 → t.hi = 0 ∧ t.lo = 0) ∧
      (s.readGpr rs = 0x80000000 → s.readGpr rt = 0xFFFFFFFF → t.hi = 0 ∧ t.lo = 0x80000000) ∧
      (s.readGpr rt ≠ 0 → ¬(s.readGpr rs = 0x80000000 ∧ s.readGpr rt = 0xFFFFFFFF) →
        (s.readGpr rs).toInt = t.lo.toInt * (s.readGpr rt).toInt + t.hi.toInt ∧
        t.hi.toInt.natAbs < (s.readGpr rt).toInt.natAbs ∧
        (t.hi.toInt = 0 ∨ (t.hi.toInt < 0 ↔ (s.readGpr rs).toInt < 0)))) ∧
    (∃ t, exec (.divu rs rt) s = .next t ∧ OnlyHiLo s t ∧ Retires s t ∧
      (s.readGpr rt = 0 → t.hi = 0 ∧ t.lo = 0) ∧
      (s.readGpr rt ≠ 0 →
        (s.readGpr rs).toNat = t.lo.toNat * (s.readGpr rt).toNat + t.hi.toNat ∧ t.hi.toNat < (s.readGpr rt).toNat))

/-- MFHI, MFLO, MTHI, MTLO (R226 to R229): the 32 bits unchanged; the other of HI and LO keeps its value. -/
def Obligations.HiLoMovesCopy : Prop :=
  SpecialIs 0x10 (fun w => .mfhi (rdOf w)) ∧ SpecialIs 0x12 (fun w => .mflo (rdOf w)) ∧
  SpecialIs 0x11 (fun w => .mthi (rsOf w)) ∧ SpecialIs 0x13 (fun w => .mtlo (rsOf w)) ∧
  ∀ (s : State) (rd rs : Nat), rd < 32 →
    (∃ t, exec (.mfhi rd) s = .next t ∧ WritesGpr rd s.hi s t ∧ OnlyGprs s t ∧ Retires s t) ∧
    (∃ t, exec (.mflo rd) s = .next t ∧ WritesGpr rd s.lo s t ∧ OnlyGprs s t ∧ Retires s t) ∧
    (∃ t, exec (.mthi rs) s = .next t ∧ t.hi = s.readGpr rs ∧ t.lo = s.lo ∧ OnlyHiLo s t ∧ Retires s t) ∧
    (∃ t, exec (.mtlo rs) s = .next t ∧ t.lo = s.readGpr rs ∧ t.hi = s.hi ∧ OnlyHiLo s t ∧ Retires s t)

/-! ### Traps, SYSCALL, BREAK, SYNC (43_trap_system.md) -/

/-- The six conditional traps (R240 to R246): Tr exactly when the comparison holds; otherwise only PC moves. -/
def Obligations.TrapsTakeTrExactlyWhenTheComparisonHolds : Prop :=
  SpecialIs 0x34 (fun w => .teq (rsOf w) (rtOf w) (trapCodeOf w)) ∧ SpecialIs 0x36 (fun w => .tne (rsOf w) (rtOf w) (trapCodeOf w)) ∧
  SpecialIs 0x30 (fun w => .tge (rsOf w) (rtOf w) (trapCodeOf w)) ∧ SpecialIs 0x31 (fun w => .tgeu (rsOf w) (rtOf w) (trapCodeOf w)) ∧
  SpecialIs 0x32 (fun w => .tlt (rsOf w) (rtOf w) (trapCodeOf w)) ∧ SpecialIs 0x33 (fun w => .tltu (rsOf w) (rtOf w) (trapCodeOf w)) ∧
  ∀ (s : State) (rs rt : Nat) (code : BitVec 10), ∃ t, Retires s t ∧ OnlyPc s t ∧
    exec (.teq rs rt code) s = .next (if s.readGpr rs = s.readGpr rt then s.raise .tr else t) ∧
    exec (.tne rs rt code) s = .next (if s.readGpr rs = s.readGpr rt then t else s.raise .tr) ∧
    exec (.tge rs rt code) s = .next (if (s.readGpr rs).toInt ≥ (s.readGpr rt).toInt then s.raise .tr else t) ∧
    exec (.tgeu rs rt code) s = .next (if (s.readGpr rs).toNat ≥ (s.readGpr rt).toNat then s.raise .tr else t) ∧
    exec (.tlt rs rt code) s = .next (if (s.readGpr rs).toInt < (s.readGpr rt).toInt then s.raise .tr else t) ∧
    exec (.tltu rs rt code) s = .next (if (s.readGpr rs).toNat < (s.readGpr rt).toNat then s.raise .tr else t)

/-- SYSCALL takes Sys and BREAK takes Bp, always, whatever their code, and by the default HALT_CODES Sys goes on and Bp
stops the core; SYNC only moves PC (R250 to R252). -/
def Obligations.SyscallBreakAndSync : Prop :=
  SpecialIs 0x0C (fun w => .syscall (sysCodeOf w)) ∧ SpecialIs 0x0D (fun w => .brk (sysCodeOf w)) ∧
  SpecialIs 0x0F (fun _ => .sync) ∧
  ∀ (s : State) (code : BitVec 20),
    (exec (.syscall code) s = .next (s.raise .sys) ∧ (s.raise .sys).cp0.excCode = 8 ∧
      (s.raise .sys).cp0.epc = (if s.inDelay then s.pc - 4 else s.pc) ∧ (s.raise .sys).cp0.exl = true ∧
      (s.raise .sys).pc = s.cp0.vectorFor .sys ∧
      (s.cfg.haltCodes = Config.default.haltCodes → (s.raise .sys).running = s.running)) ∧
    (exec (.brk code) s = .next (s.raise .bp) ∧ (s.raise .bp).cp0.excCode = 9 ∧
      (s.raise .bp).cp0.epc = (if s.inDelay then s.pc - 4 else s.pc) ∧ (s.raise .bp).cp0.exl = true ∧
      (s.raise .bp).pc = s.cp0.vectorFor .bp ∧
      (s.cfg.haltCodes = Config.default.haltCodes → (s.raise .bp).running = false)) ∧
    (∃ t, exec .sync s = .next t ∧ OnlyPc s t ∧ Retires s t)

/-! ### Immediates (44_itype_alu.md) -/

/-- ADDI (R261): the exact sum with the sign-extended immediate where it fits, else Ov with rt not written (the overflow
predicate by the spec's own inference, R180, as for ADD). -/
def Obligations.AddImmediateGivesTheExactSumOrTakesOv : Prop :=
  MajorIs 0x08 (fun w => .addi (rtOf w) (rsOf w) (immOf w)) ∧
  ∀ (s : State) (rt rs : Nat) (imm : BitVec 16), rt < 32 →
    (fitsSigned ((s.readGpr rs).toInt + imm.toInt) →
      ∃ t, exec (.addi rt rs imm) s = .next t ∧ WritesGpr rt (BitVec.ofInt 32 ((s.readGpr rs).toInt + imm.toInt)) s t ∧
        OnlyGprs s t ∧ Retires s t) ∧
    (¬fitsSigned ((s.readGpr rs).toInt + imm.toInt) → exec (.addi rt rs imm) s = .next (s.raise .ov))

/-- ADDIU and LUI (R262, R268): the wrapped sum with the sign-extended immediate; the immediate in the upper half. -/
def Obligations.AddiuWrapsAndLuiPlacesTheUpperHalf : Prop :=
  MajorIs 0x09 (fun w => .addiu (rtOf w) (rsOf w) (immOf w)) ∧ MajorIs 0x0F (fun w => .lui (rtOf w) (immOf w)) ∧
  ∀ (s : State) (rt rs : Nat) (imm : BitVec 16), rt < 32 →
    (∃ t, exec (.addiu rt rs imm) s = .next t ∧ WritesGpr rt (BitVec.ofInt 32 ((s.readGpr rs).toInt + imm.toInt)) s t ∧
      OnlyGprs s t ∧ Retires s t) ∧
    (∃ t, exec (.lui rt imm) s = .next t ∧ WritesGpr rt (BitVec.ofNat 32 (imm.toNat * 65536)) s t ∧
      OnlyGprs s t ∧ Retires s t)

/-- ANDI, ORI, XORI (R263 to R265): bits 15:0 combined with the immediate, bits 31:16 with zeros. -/
def Obligations.ImmediateLogicZeroExtends : Prop :=
  MajorIs 0x0C (fun w => .andi (rtOf w) (rsOf w) (immOf w)) ∧ MajorIs 0x0D (fun w => .ori (rtOf w) (rsOf w) (immOf w)) ∧
  MajorIs 0x0E (fun w => .xori (rtOf w) (rsOf w) (immOf w)) ∧
  ∀ (s : State) (rt rs : Nat) (imm : BitVec 16), rt < 32 →
    (∃ t v, exec (.andi rt rs imm) s = .next t ∧ WritesGpr rt v s t ∧ OnlyGprs s t ∧ Retires s t ∧
      ∀ j < 32, v.getLsbD j = if j < 16 then ((s.readGpr rs).getLsbD j && imm.getLsbD j) else false) ∧
    (∃ t v, exec (.ori rt rs imm) s = .next t ∧ WritesGpr rt v s t ∧ OnlyGprs s t ∧ Retires s t ∧
      ∀ j < 32, v.getLsbD j = if j < 16 then ((s.readGpr rs).getLsbD j || imm.getLsbD j) else (s.readGpr rs).getLsbD j) ∧
    (∃ t v, exec (.xori rt rs imm) s = .next t ∧ WritesGpr rt v s t ∧ OnlyGprs s t ∧ Retires s t ∧
      ∀ j < 32, v.getLsbD j = if j < 16 then ((s.readGpr rs).getLsbD j != imm.getLsbD j) else (s.readGpr rs).getLsbD j)

/-! ### Loads and stores (45_load_store.md, 20_memory.md) -/

/-- What the model reads at an admitted address is what was last written there, for each width, the bytes are big-endian,
and an access that is not admitted changes nothing (20_memory.md R84, R86, R87). The memory is in the model's canonical
form (log 4), which every step keeps (`EveryStepKeepsTheInvariants`). -/
def Obligations.StoredValueIsReadBack : Prop :=
  ∀ (s : State) (a : Word), s.mem.wf →
    (∀ v, s.admits a 4 → ∃ t, s.store32 a v = some t ∧ t.load32 a = some v ∧ KeepsMemOutside a.toNat 4 s t ∧
      ∀ k < 4, t.readByte (a.toNat + k) = v.extractLsb' (8 * (3 - k)) 8) ∧
    (∀ v, s.admits a 2 → ∃ t, s.store16 a v = some t ∧ t.load16 a = some v ∧ KeepsMemOutside a.toNat 2 s t ∧
      ∀ k < 2, t.readByte (a.toNat + k) = v.extractLsb' (8 * (1 - k)) 8) ∧
    (∀ v, s.admits a 1 → ∃ t, s.store8 a v = some t ∧ t.load8 a = some v ∧ KeepsMemOutside a.toNat 1 s t) ∧
    (¬s.admits a 4 → (∀ v, s.store32 a v = none) ∧ s.load32 a = none) ∧
    (¬s.admits a 2 → (∀ v, s.store16 a v = none) ∧ s.load16 a = none) ∧
    (¬s.admits a 1 → (∀ v, s.store8 a v = none) ∧ s.load8 a = none)

/-- LW, LL, LH, LHU, LB, LBU (R280 to R286, R300): the big-endian value at GPR[base] + sext(offset), extended by the
mnemonic, where the access is admitted; else AdEL with BadVAddr = the address and rt not written. Memory never changes. -/
def Obligations.LoadsReadMemoryOrTakeAdel : Prop :=
  MajorIs 0x23 (fun w => .lw (rtOf w) (rsOf w) (immOf w)) ∧ MajorIs 0x30 (fun w => .ll (rtOf w) (rsOf w) (immOf w)) ∧
  MajorIs 0x21 (fun w => .lh (rtOf w) (rsOf w) (immOf w)) ∧ MajorIs 0x25 (fun w => .lhu (rtOf w) (rsOf w) (immOf w)) ∧
  MajorIs 0x20 (fun w => .lb (rtOf w) (rsOf w) (immOf w)) ∧ MajorIs 0x24 (fun w => .lbu (rtOf w) (rsOf w) (immOf w)) ∧
  ∀ (s : State) (rt base : Nat) (off : BitVec 16) (a : Word), rt < 32 →
    a = BitVec.ofInt 32 ((s.readGpr base).toInt + off.toInt) →
    (s.admits a 4 → ∀ v : Word, v = s.readByte a.toNat ++ s.readByte (a.toNat + 1) ++ s.readByte (a.toNat + 2) ++ s.readByte (a.toNat + 3) →
      (∃ t, exec (.lw rt base off) s = .next t ∧ WritesGpr rt v s t ∧ OnlyGprs s t ∧ Retires s t) ∧
      (∃ t, exec (.ll rt base off) s = .next t ∧ WritesGpr rt v s t ∧ OnlyGprs s t ∧ Retires s t)) ∧
    (¬s.admits a 4 → exec (.lw rt base off) s = .next (s.addressError .adel a) ∧
      exec (.ll rt base off) s = .next (s.addressError .adel a)) ∧
    (s.admits a 2 → ∀ v : Half, v = s.readByte a.toNat ++ s.readByte (a.toNat + 1) →
      (∃ t, exec (.lh rt base off) s = .next t ∧ WritesGpr rt (BitVec.ofInt 32 v.toInt) s t ∧ OnlyGprs s t ∧ Retires s t) ∧
      (∃ t, exec (.lhu rt base off) s = .next t ∧ WritesGpr rt (BitVec.ofNat 32 v.toNat) s t ∧ OnlyGprs s t ∧ Retires s t)) ∧
    (¬s.admits a 2 → exec (.lh rt base off) s = .next (s.addressError .adel a) ∧
      exec (.lhu rt base off) s = .next (s.addressError .adel a)) ∧
    (s.admits a 1 →
      (∃ t, exec (.lb rt base off) s = .next t ∧ WritesGpr rt (BitVec.ofInt 32 (s.readByte a.toNat).toInt) s t ∧
        OnlyGprs s t ∧ Retires s t) ∧
      (∃ t, exec (.lbu rt base off) s = .next t ∧ WritesGpr rt (BitVec.ofNat 32 (s.readByte a.toNat).toNat) s t ∧
        OnlyGprs s t ∧ Retires s t)) ∧
    (¬s.admits a 1 → exec (.lb rt base off) s = .next (s.addressError .adel a) ∧
      exec (.lbu rt base off) s = .next (s.addressError .adel a))

/-- SW, SH, SB, SC (R280, R281, R290 to R292, R301): the low bytes of GPR[rt], most significant first, at the effective
address the meaning computes, and no other byte; SC then writes 1 to rt. Not admitted: AdES, nothing stored, rt kept. -/
def Obligations.StoresWriteTheirBytesOrTakeAdes : Prop :=
  MajorIs 0x2B (fun w => .sw (rtOf w) (rsOf w) (immOf w)) ∧ MajorIs 0x29 (fun w => .sh (rtOf w) (rsOf w) (immOf w)) ∧
  MajorIs 0x28 (fun w => .sb (rtOf w) (rsOf w) (immOf w)) ∧ MajorIs 0x38 (fun w => .sc (rtOf w) (rsOf w) (immOf w)) ∧
  ∀ (s : State) (rt base : Nat) (off : BitVec 16) (a : Word), s.mem.wf → rt < 32 → a = s.effAddr base off →
    a = BitVec.ofInt 32 ((s.readGpr base).toInt + off.toInt) ∧
    (s.admits a 4 →
      (∃ t, exec (.sw rt base off) s = .next t ∧ KeepsGprs s t ∧ KeepsHiLo s t ∧ KeepsCp0Tlb s t ∧ KeepsRun s t ∧ Retires s t ∧
        KeepsMemOutside a.toNat 4 s t ∧ ∀ k < 4, t.readByte (a.toNat + k) = (s.readGpr rt).extractLsb' (8 * (3 - k)) 8) ∧
      (∃ t, exec (.sc rt base off) s = .next t ∧ WritesGpr rt 1 s t ∧ KeepsHiLo s t ∧ KeepsCp0Tlb s t ∧ KeepsRun s t ∧ Retires s t ∧
        KeepsMemOutside a.toNat 4 s t ∧ ∀ k < 4, t.readByte (a.toNat + k) = (s.readGpr rt).extractLsb' (8 * (3 - k)) 8)) ∧
    (¬s.admits a 4 → exec (.sw rt base off) s = .next (s.addressError .ades a) ∧
      exec (.sc rt base off) s = .next (s.addressError .ades a)) ∧
    (s.admits a 2 →
      ∃ t, exec (.sh rt base off) s = .next t ∧ KeepsGprs s t ∧ KeepsHiLo s t ∧ KeepsCp0Tlb s t ∧ KeepsRun s t ∧ Retires s t ∧
        KeepsMemOutside a.toNat 2 s t ∧ ∀ k < 2, t.readByte (a.toNat + k) = (s.readGpr rt).extractLsb' (8 * (1 - k)) 8) ∧
    (¬s.admits a 2 → exec (.sh rt base off) s = .next (s.addressError .ades a)) ∧
    (s.admits a 1 →
      ∃ t, exec (.sb rt base off) s = .next t ∧ KeepsGprs s t ∧ KeepsHiLo s t ∧ KeepsCp0Tlb s t ∧ KeepsRun s t ∧ Retires s t ∧
        KeepsMemOutside a.toNat 1 s t ∧ t.readByte a.toNat = (s.readGpr rt).extractLsb' 0 8) ∧
    (¬s.admits a 1 → exec (.sb rt base off) s = .next (s.addressError .ades a))

/-- LWL, LWR, SWL, SWR under UNALIGNED_LS = stub (R294, R296 to R299): valid, and only PC moves, whatever the address. -/
def Obligations.UnalignedStubsOnlyMovePc : Prop :=
  MajorIs 0x22 (fun w => .lwl (rtOf w) (rsOf w) (immOf w)) ∧ MajorIs 0x26 (fun w => .lwr (rtOf w) (rsOf w) (immOf w)) ∧
  MajorIs 0x2A (fun w => .swl (rtOf w) (rsOf w) (immOf w)) ∧ MajorIs 0x2E (fun w => .swr (rtOf w) (rsOf w) (immOf w)) ∧
  ∀ (s : State) (rt base : Nat) (off : BitVec 16), s.cfg.unalignedLs = .stub →
    ∃ t, Retires s t ∧ OnlyPc s t ∧ exec (.lwl rt base off) s = .next t ∧ exec (.lwr rt base off) s = .next t ∧
      exec (.swl rt base off) s = .next t ∧ exec (.swr rt base off) s = .next t

/-- LWL and LWR under UNALIGNED_LS = full (R295), byte by byte: with `q` the aligned address and `b` the place in the
word, byte j of rt (0 the least significant) comes from memory or is kept. AdEL when the word is outside memory. -/
def Obligations.UnalignedLoadsMergeBytes : Prop :=
  ∀ (s : State) (rt base : Nat) (off : BitVec 16) (a : Word) (q b : Nat), rt < 32 → s.cfg.unalignedLs = .full →
    a = s.effAddr base off → q = 4 * (a.toNat / 4) → b = a.toNat % 4 →
    (q + 3 < s.cfg.memSize →
      (∃ t v, exec (.lwl rt base off) s = .next t ∧ WritesGpr rt v s t ∧ OnlyGprs s t ∧ Retires s t ∧
        ∀ j < 4, v.extractLsb' (8 * j) 8 =
          if b ≤ j then s.readByte (q + (3 - (j - b))) else (s.readGpr rt).extractLsb' (8 * j) 8) ∧
      (∃ t v, exec (.lwr rt base off) s = .next t ∧ WritesGpr rt v s t ∧ OnlyGprs s t ∧ Retires s t ∧
        ∀ j < 4, v.extractLsb' (8 * j) 8 =
          if j ≤ b then s.readByte (q + (b - j)) else (s.readGpr rt).extractLsb' (8 * j) 8)) ∧
    (s.cfg.memSize ≤ q + 3 → exec (.lwl rt base off) s = .next (s.addressError .adel a) ∧
      exec (.lwr rt base off) s = .next (s.addressError .adel a))

/-- SWL and SWR under UNALIGNED_LS = full (R295): SWL stores the most significant 4 - b bytes of rt at `a` up to the end
of the aligned word, SWR the least significant b + 1 bytes from the start of it up to `a`; no other byte changes. AdES
when the word is outside memory. -/
def Obligations.UnalignedStoresWritePartOfTheWord : Prop :=
  ∀ (s : State) (rt base : Nat) (off : BitVec 16) (a : Word) (q b : Nat), s.mem.wf → s.cfg.unalignedLs = .full →
    a = s.effAddr base off → q = 4 * (a.toNat / 4) → b = a.toNat % 4 →
    (q + 3 < s.cfg.memSize →
      (∃ t, exec (.swl rt base off) s = .next t ∧ KeepsGprs s t ∧ KeepsHiLo s t ∧ KeepsCp0Tlb s t ∧ KeepsRun s t ∧ Retires s t ∧
        KeepsMemOutside a.toNat (4 - b) s t ∧
        ∀ k < 4 - b, t.readByte (a.toNat + k) = (s.readGpr rt).extractLsb' (8 * (3 - k)) 8) ∧
      (∃ t, exec (.swr rt base off) s = .next t ∧ KeepsGprs s t ∧ KeepsHiLo s t ∧ KeepsCp0Tlb s t ∧ KeepsRun s t ∧ Retires s t ∧
        KeepsMemOutside q (b + 1) s t ∧
        ∀ k ≤ b, t.readByte (q + k) = (s.readGpr rt).extractLsb' (8 * (b - k)) 8)) ∧
    (s.cfg.memSize ≤ q + 3 → exec (.swl rt base off) s = .next (s.addressError .ades a) ∧
      exec (.swr rt base off) s = .next (s.addressError .ades a))

/-! ### Branches and jumps (46_branch_jump.md) -/

/-- BEQ and BNE (R310, R312, R313): taken, the slot comes next and then PC + 4 + 4 * offset; not taken, only PC moves. -/
def Obligations.EqualityBranches : Prop :=
  MajorIs 0x04 (fun w => .beq (rsOf w) (rtOf w) (immOf w)) ∧ MajorIs 0x05 (fun w => .bne (rsOf w) (rtOf w) (immOf w)) ∧
  ∀ (s : State) (rs rt : Nat) (off : BitVec 16), s.inDelay = false →
    ∃ t u, OnlyPc s t ∧ DelaysTo (BitVec.ofInt 32 (s.pc.toInt + 4 + 4 * off.toInt)) s t ∧ OnlyPc s u ∧ Retires s u ∧
      exec (.beq rs rt off) s = .next (if s.readGpr rs = s.readGpr rt then t else u) ∧
      exec (.bne rs rt off) s = .next (if s.readGpr rs = s.readGpr rt then u else t)

/-- BLEZ, BGTZ, BLTZ, BGEZ (R314 to R317): as above, by the sign of GPR[rs]. -/
def Obligations.BranchesAgainstZero : Prop :=
  MajorIs 0x06 (fun w => .blez (rsOf w) (immOf w)) ∧ MajorIs 0x07 (fun w => .bgtz (rsOf w) (immOf w)) ∧
  RegimmIs 0x00 (fun w => .bltz (rsOf w) (immOf w)) ∧ RegimmIs 0x01 (fun w => .bgez (rsOf w) (immOf w)) ∧
  ∀ (s : State) (rs : Nat) (off : BitVec 16), s.inDelay = false →
    ∃ t u, OnlyPc s t ∧ DelaysTo (BitVec.ofInt 32 (s.pc.toInt + 4 + 4 * off.toInt)) s t ∧ OnlyPc s u ∧ Retires s u ∧
      exec (.blez rs off) s = .next (if (s.readGpr rs).toInt ≤ 0 then t else u) ∧
      exec (.bgtz rs off) s = .next (if (s.readGpr rs).toInt > 0 then t else u) ∧
      exec (.bltz rs off) s = .next (if (s.readGpr rs).msb then t else u) ∧
      exec (.bgez rs off) s = .next (if (s.readGpr rs).msb then u else t)

/-- BLTZAL and BGEZAL (R311, R318, R319): the condition is on the old GPR[rs]; GPR[31] receives PC + 8 taken or not. -/
def Obligations.LinkingBranches : Prop :=
  RegimmIs 0x10 (fun w => .bltzal (rsOf w) (immOf w)) ∧ RegimmIs 0x11 (fun w => .bgezal (rsOf w) (immOf w)) ∧
  ∀ (s : State) (rs : Nat) (off : BitVec 16), s.inDelay = false →
    ∃ t u, WritesGpr 31 (s.pc + 8) s t ∧ OnlyGprs s t ∧ DelaysTo (BitVec.ofInt 32 (s.pc.toInt + 4 + 4 * off.toInt)) s t ∧
      WritesGpr 31 (s.pc + 8) s u ∧ OnlyGprs s u ∧ Retires s u ∧
      exec (.bltzal rs off) s = .next (if (s.readGpr rs).toInt < 0 then t else u) ∧
      exec (.bgezal rs off) s = .next (if (s.readGpr rs).toInt ≥ 0 then t else u)

/-- J and JAL (R311, R320, R321): bits 31:28 of the target from PC + 4, bits 27:2 the field, bits 1:0 zero. -/
def Obligations.JumpsKeepTheRegionOfTheSlot : Prop :=
  MajorIs 0x02 (fun w => .j (targetOf w)) ∧ MajorIs 0x03 (fun w => .jal (targetOf w)) ∧
  ∀ (s : State) (field : BitVec 26), s.inDelay = false →
    (∃ t, exec (.j field) s = .next t ∧ OnlyPc s t ∧ DelaysTo ((s.pc + 4).extractLsb' 28 4 ++ field ++ 0#2) s t) ∧
    (∃ t, exec (.jal field) s = .next t ∧ WritesGpr 31 (s.pc + 8) s t ∧ OnlyGprs s t ∧
      DelaysTo ((s.pc + 4).extractLsb' 28 4 ++ field ++ 0#2) s t)

/-- JR and JALR (R311, R322, R323): the target is GPR[rs], for JALR read after the link is written, so that rd = rs
jumps to the link (D16); rd = 0 discards the link. -/
def Obligations.RegisterJumps : Prop :=
  SpecialIs 0x08 (fun w => .jr (rsOf w)) ∧ SpecialIs 0x09 (fun w => .jalr (rdOf w) (rsOf w)) ∧
  ∀ (s : State) (rd rs : Nat), rd < 32 → s.inDelay = false →
    (∃ t, exec (.jr rs) s = .next t ∧ OnlyPc s t ∧ DelaysTo (s.readGpr rs) s t) ∧
    (∃ t, exec (.jalr rd rs) s = .next t ∧ WritesGpr rd (s.pc + 8) s t ∧ OnlyGprs s t ∧
      DelaysTo (if rd = rs ∧ rd ≠ 0 then s.pc + 8 else s.readGpr rs) s t)

/-! ### COP0 (47_cop0.md, 10_state.md) -/

/-- MFC0 (R341, R343): GPR[rt] receives CP0Read(rd, sel); the 23 pairs of R33 read their registers, and a pair that is no
register reads 0. -/
def Obligations.Mfc0ReadsTheNamedRegister : Prop :=
  Cop0Is 0x00 (fun w => .mfc0 (rtOf w) (rdOf w) (selOf w)) ∧
  (∀ (s : State) (rt rd sel : Nat), rt < 32 →
    ∃ t, exec (.mfc0 rt rd sel) s = .next t ∧ WritesGpr rt (s.getCp0 rd sel) s t ∧ OnlyGprs s t ∧ Retires s t) ∧
  ∀ c : Cp0,
    (∀ p ∈ [((0, 0), c.index), ((1, 0), c.random), ((2, 0), c.entryLo0), ((3, 0), c.entryLo1), ((4, 0), c.context),
        ((5, 0), c.pageMask), ((6, 0), c.wired), ((8, 0), c.badVAddr), ((9, 0), c.count), ((10, 0), c.entryHi),
        ((11, 0), c.compare), ((12, 0), c.status), ((13, 0), c.cause), ((14, 0), c.epc), ((15, 0), c.prid),
        ((15, 1), c.ebase), ((16, 0), c.config0), ((16, 1), c.config1), ((17, 0), c.llAddr), ((18, 0), c.watchLo),
        ((19, 0), c.watchHi), ((20, 0), c.xContext), ((30, 0), c.errorEpc)], c.read p.1.1 p.1.2 = p.2) ∧
    ∀ reg sel, (reg, sel) ∉ [(0, 0), (1, 0), (2, 0), (3, 0), (4, 0), (5, 0), (6, 0), (8, 0), (9, 0), (10, 0), (11, 0),
      (12, 0), (13, 0), (14, 0), (15, 0), (15, 1), (16, 0), (16, 1), (17, 0), (18, 0), (19, 0), (20, 0), (30, 0)] →
      c.read reg sel = 0

/-- MTC0 (R31, R342, R344): for each register with a plain write mask W, the register becomes (old & ~W) | (v & W) and no
other register changes; Index, Wired and Compare have their own effects; everything else discards the write. -/
def Obligations.Mtc0WritesThroughTheMask : Prop :=
  Cop0Is 0x04 (fun w => .mtc0 (rtOf w) (rdOf w) (selOf w)) ∧
  ∀ (s : State) (rt reg sel : Nat), s.cp0.Inv s.cfg → 1 ≤ s.cfg.tlbSize → s.cfg.tlbSize ≤ 64 →
    ∃ t, exec (.mtc0 rt reg sel) s = .next t ∧ KeepsGprs s t ∧ KeepsHiLo s t ∧ KeepsMem s t ∧ KeepsRun s t ∧ t.tlb = s.tlb ∧
      Retires s t ∧
      (∀ W : Word, ((reg, sel), W) ∈ [((2, 0), 0x3FFFFFFF#32), ((3, 0), 0x3FFFFFFF#32), ((4, 0), 0xFFFFFFFF#32),
          ((5, 0), 0x01FFE000#32), ((9, 0), 0xFFFFFFFF#32), ((10, 0), 0xFFFFE0FF#32), ((12, 0), 0xFFFFFFFF#32),
          ((13, 0), 0x00800300#32), ((14, 0), 0xFFFFFFFF#32), ((15, 1), 0xFFFFFFFF#32), ((16, 0), 0x00000007#32),
          ((17, 0), 0xFFFFFFFF#32), ((18, 0), 0xFFFFFFFF#32), ((19, 0), 0xFFFFFFFF#32), ((20, 0), 0xFFFFFFFF#32),
          ((30, 0), 0xFFFFFFFF#32)] →
        t.cp0.read reg sel = (s.cp0.read reg sel &&& ~~~W) ||| (s.readGpr rt &&& W) ∧
        ∀ r k, (r, k) ≠ (reg, sel) → t.cp0.read r k = s.cp0.read r k) ∧
      ((reg, sel) = (0, 0) → t.cp0.index =
          (s.cp0.index &&& 0x80000000) ||| BitVec.ofNat 32 (min ((s.readGpr rt).toNat % 64) (s.cfg.tlbSize - 1)) ∧
        ∀ r k, (r, k) ≠ (0, 0) → t.cp0.read r k = s.cp0.read r k) ∧
      ((reg, sel) = (6, 0) → t.cp0.wired.toNat = min ((s.readGpr rt).toNat % 64) (s.cfg.tlbSize - 1) ∧
        t.cp0.random.toNat = s.cfg.tlbSize - 1 ∧
        ∀ r k, (r, k) ∉ [(6, 0), (1, 0)] → t.cp0.read r k = s.cp0.read r k) ∧
      ((reg, sel) = (11, 0) → t.cp0.compare = s.readGpr rt ∧ t.cp0.ti = false ∧ t.cp0.cause.getLsbD 15 = false ∧
        (∀ j, j ≠ 30 → j ≠ 15 → t.cp0.cause.getLsbD j = s.cp0.cause.getLsbD j) ∧
        ∀ r k, (r, k) ∉ [(11, 0), (13, 0)] → t.cp0.read r k = s.cp0.read r k) ∧
      ((reg, sel) ∉ [(0, 0), (2, 0), (3, 0), (4, 0), (5, 0), (6, 0), (9, 0), (10, 0), (11, 0), (12, 0), (13, 0), (14, 0),
          (15, 1), (16, 0), (17, 0), (18, 0), (19, 0), (20, 0), (30, 0)] → t.cp0 = s.cp0)

/-- ERET (R346; 60_exceptions.md R398): BD cleared; ERL, if set, cleared and PC = ErrorEPC, EXL kept; else EXL cleared and
PC = EPC; no delay slot; no other bit, register or memory changes. -/
def Obligations.EretReturns : Prop :=
  CoIs 0x18 .eret ∧
  ∀ s : State, s.inDelay = false →
    ∃ t, exec .eret s = .next t ∧ OnlyGprs s { t with cp0 := s.cp0 } ∧ KeepsGprs s t ∧ t.inDelay = false ∧ t.cp0.bd = false ∧
      (∀ j, j ≠ 31 → t.cp0.cause.getLsbD j = s.cp0.cause.getLsbD j) ∧
      (s.cp0.erl = true → t.pc = s.cp0.errorEpc ∧ t.cp0.erl = false ∧
        ∀ j, j ≠ 2 → t.cp0.status.getLsbD j = s.cp0.status.getLsbD j) ∧
      (s.cp0.erl = false → t.pc = s.cp0.epc ∧ t.cp0.exl = false ∧
        ∀ j, j ≠ 1 → t.cp0.status.getLsbD j = s.cp0.status.getLsbD j) ∧
      { t.cp0 with cause := s.cp0.cause, status := s.cp0.status } = s.cp0

/-- TLBP (R352): the first entry whose whole VPN2 equals EntryHi's and that is global or of the same ASID, else P alone. -/
def Obligations.ProbeFindsTheFirstMatch : Prop :=
  CoIs 0x08 .tlbp ∧
  ∀ s : State, s.tlb.length ≤ 64 →
    ∃ t, exec .tlbp s = .next t ∧ OnlyPc s { t with cp0 := s.cp0 } ∧ Retires s t ∧
      { t.cp0 with index := s.cp0.index } = s.cp0 ∧
      ((∃ (i : Nat) (e : TlbEntry), s.tlb[i]? = some e ∧ t.cp0.index = BitVec.ofNat 32 i ∧ t.cp0.indexP = false ∧
          e.vpn2 = s.cp0.entryHi.extractLsb' 13 19 ∧ (e.g = true ∨ e.asid = s.cp0.entryHi.extractLsb' 0 8) ∧
          ∀ (k : Nat) (f : TlbEntry), k < i → s.tlb[k]? = some f →
            ¬(f.vpn2 = s.cp0.entryHi.extractLsb' 13 19 ∧ (f.g = true ∨ f.asid = s.cp0.entryHi.extractLsb' 0 8))) ∨
        (t.cp0.index = 0x80000000 ∧ ∀ f ∈ s.tlb,
            ¬(f.vpn2 = s.cp0.entryHi.extractLsb' 13 19 ∧ (f.g = true ∨ f.asid = s.cp0.entryHi.extractLsb' 0 8))))

/-- TLBWI and TLBR (R350, R351, R354, R356; 10_state.md R60, R62): no-ops when Index.P = 1; otherwise TLBWI stores the
entry of the four registers at Index and nothing else, and TLBR packs the entry at Index into the four registers with
zeros outside the named fields, and changes nothing else. -/
def Obligations.IndexedTlbWriteAndRead : Prop :=
  CoIs 0x02 .tlbwi ∧ CoIs 0x01 .tlbr ∧
  ∀ s : State,
    ∃ t u, exec .tlbwi s = .next t ∧ exec .tlbr s = .next u ∧ Retires s t ∧ Retires s u ∧
      OnlyCp0Tlb s t ∧ OnlyCp0Tlb s u ∧ t.cp0 = s.cp0 ∧ u.tlb = s.tlb ∧
      (s.cp0.indexP = true → t.tlb = s.tlb ∧ u.cp0 = s.cp0) ∧
      (s.cp0.indexP = false → s.cp0.indexField < s.tlb.length →
        (∃ e, t.tlb[s.cp0.indexField]? = some e ∧
          e.vpn2 = s.cp0.entryHi.extractLsb' 13 19 ∧ e.asid = s.cp0.entryHi.extractLsb' 0 8 ∧
          e.g = (s.cp0.entryLo0.getLsbD 0 && s.cp0.entryLo1.getLsbD 0) ∧ e.mask = s.cp0.pageMask.extractLsb' 13 12 ∧
          e.pfn0 = s.cp0.entryLo0.extractLsb' 6 20 ∧ e.c0 = s.cp0.entryLo0.extractLsb' 3 3 ∧
          e.d0 = s.cp0.entryLo0.getLsbD 2 ∧ e.v0 = s.cp0.entryLo0.getLsbD 1 ∧
          e.pfn1 = s.cp0.entryLo1.extractLsb' 6 20 ∧ e.c1 = s.cp0.entryLo1.extractLsb' 3 3 ∧
          e.d1 = s.cp0.entryLo1.getLsbD 2 ∧ e.v1 = s.cp0.entryLo1.getLsbD 1) ∧
        t.tlb.length = s.tlb.length ∧ (∀ k, k ≠ s.cp0.indexField → t.tlb[k]? = s.tlb[k]?) ∧
        ∃ e, s.tlb[s.cp0.indexField]? = some e ∧
          u.cp0.entryHi = e.vpn2 ++ 0#5 ++ e.asid ∧
          u.cp0.entryLo0 = 0#6 ++ e.pfn0 ++ e.c0 ++ BitVec.ofBool e.d0 ++ BitVec.ofBool e.v0 ++ BitVec.ofBool e.g ∧
          u.cp0.entryLo1 = 0#6 ++ e.pfn1 ++ e.c1 ++ BitVec.ofBool e.d1 ++ BitVec.ofBool e.v1 ++ BitVec.ofBool e.g ∧
          u.cp0.pageMask = 0#7 ++ e.mask ++ 0#13 ∧
          { u.cp0 with entryHi := s.cp0.entryHi, entryLo0 := s.cp0.entryLo0, entryLo1 := s.cp0.entryLo1,
                       pageMask := s.cp0.pageMask } = s.cp0)

/-- TLBWI followed by TLBR at the same Index gives back EntryHi, EntryLo0, EntryLo1 and PageMask exactly, for legal
register values whose G bits agree (R356, 90_conflicts.md C4). -/
def Obligations.TlbRoundTrip : Prop :=
  ∀ s t u v : State, Inv s → s.cp0.indexP = false → s.cp0.entryLo0.getLsbD 0 = s.cp0.entryLo1.getLsbD 0 →
    s.cp0.entryLo0 &&& 0x3C000000 = 0 → s.cp0.entryLo1 &&& 0x3C000000 = 0 →
    exec .tlbwi s = .next t → u.cp0.index = t.cp0.index → u.tlb = t.tlb → exec .tlbr u = .next v →
    v.cp0.entryHi = s.cp0.entryHi ∧ v.cp0.entryLo0 = s.cp0.entryLo0 ∧ v.cp0.entryLo1 = s.cp0.entryLo1 ∧
      v.cp0.pageMask = s.cp0.pageMask

/-- TLBWR (R350, R358): the entry of the four registers at Random, which then steps once more; no other entry, register
or Index changes. -/
def Obligations.RandomTlbWrite : Prop :=
  CoIs 0x06 .tlbwr ∧
  ∀ s : State, s.cp0.Inv s.cfg → s.tlb.length = s.cfg.tlbSize → s.cfg.tlbSize ≤ 64 →
    ∃ t, exec .tlbwr s = .next t ∧ OnlyCp0Tlb s t ∧ Retires s t ∧
      t.tlb[s.cp0.random.toNat]? = some s.cp0.toEntry ∧
      (∀ k, k ≠ s.cp0.random.toNat → t.tlb[k]? = s.tlb[k]?) ∧
      t.cp0.random.toNat = (if s.cp0.random.toNat = s.cp0.wired.toNat then s.cfg.tlbSize - 1 else s.cp0.random.toNat - 1) ∧
      { t.cp0 with random := s.cp0.random } = s.cp0
end

