-- ==== Sys2Proof/Laws/Bits.lean ====
section
/-! SUPPORT. The bit operations, one bit at a time, and the words that are the concatenation of their bytes. -/

namespace Sys2Proof.Machine

/-- `setBit` changes its bit alone. -/
theorem getLsbD_setBit (w : Word) (i j : Nat) (b : Bool) (h : i < 32) :
    (setBit w i b).getLsbD j = if j = i then b else w.getLsbD j := by
  have h1 : (1#32 <<< i).getLsbD j = decide (j = i) := by
    simp only [BitVec.getLsbD_shiftLeft, BitVec.getLsbD_one]
    by_cases hj : j < i
    · simp [hj, show j ≠ i by omega]
    · by_cases e : j = i
      · simp [e, h]
      · simp [e, show ¬(j - i = 0) by omega]
  unfold setBit
  by_cases e : j = i
  · subst e; cases b <;> simp [h1, h, -BitVec.getElem_shiftLeft]
  · cases b
    · by_cases hj : j < 32
      · simp [BitVec.getLsbD_and, BitVec.getLsbD_not, h1, e, hj, -BitVec.getElem_shiftLeft, -BitVec.getLsbD_eq_getElem]
      · simp [e, BitVec.getLsbD_of_ge _ _ (Nat.le_of_not_lt hj)]
    · simp [BitVec.getLsbD_or, h1, e, -BitVec.getLsbD_eq_getElem]

/-- `insertField` changes the bits of its field alone. -/
theorem getLsbD_insertField {n : Nat} (w : Word) (lo : Nat) (v : BitVec n) (j : Nat) (h : lo + n ≤ 32) :
    (insertField w lo v).getLsbD j = if lo ≤ j ∧ j < lo + n then v.getLsbD (j - lo) else w.getLsbD j := by
  unfold insertField
  by_cases hj : j < 32
  · by_cases h1 : lo ≤ j
    · by_cases h2 : j < lo + n
      · simp [hj, h1, h2, show j - lo < n by omega, show ¬ j < lo by omega]
      · have : v.getLsbD (j - lo) = false := BitVec.getLsbD_of_ge _ _ (by omega)
        simp [hj, h2, this, show ¬ j - lo < n by omega]
    · simp [hj, h1, show j < lo by omega]
  · simp [BitVec.getLsbD_of_ge _ _ (Nat.le_of_not_lt hj), show ¬ j < lo + n by omega]

/-- A masked write, bit by bit (10_state.md R31). -/
theorem getLsbD_maskWrite (old mask v : Word) (j : Nat) :
    (maskWrite old mask v).getLsbD j = if mask.getLsbD j then v.getLsbD j else old.getLsbD j := by
  unfold maskWrite
  by_cases hj : j < 32
  · simp only [BitVec.getLsbD_or, BitVec.getLsbD_and, BitVec.getLsbD_not, hj, decide_true, Bool.true_and]
    cases mask.getLsbD j <;> simp
  · simp [BitVec.getLsbD_of_ge _ _ (Nat.le_of_not_lt hj)]

/-- Two words that agree on every bit are equal. -/
theorem eq_of_bits {v w : Word} (h : ∀ j, v.getLsbD j = w.getLsbD j) : v = w :=
  BitVec.eq_of_getLsbD_eq fun j _ => h j

/-- A masked word is 0 exactly when its bits in the mask are 0. -/
theorem and_eq_zero_iff (w mask : Word) :
    w &&& mask = 0 ↔ ∀ j, mask.getLsbD j = true → w.getLsbD j = false := by
  constructor
  · intro h j hj
    have := congrArg (·.getLsbD j) h
    simpa [hj] using this
  · intro h
    refine eq_of_bits fun j => ?_
    by_cases hj : mask.getLsbD j = true
    · simp [h j hj]
    · simp [hj]

/-- A halfword is its two bytes. -/
theorem half_bytes (v : Half) : v.extractLsb' 8 8 ++ v.extractLsb' 0 8 = v := by
  apply BitVec.eq_of_getLsbD_eq
  intro j hj
  rw [BitVec.getLsbD_append]
  simp only [BitVec.getLsbD_extractLsb']
  by_cases h : j < 8
  · simp [h]
  · simp [h, show j - 8 < 8 by omega, show 8 + (j - 8) = j by omega]

/-- A word is its four bytes. -/
theorem word_bytes (v : Word) :
    v.extractLsb' 24 8 ++ v.extractLsb' 16 8 ++ v.extractLsb' 8 8 ++ v.extractLsb' 0 8 = v := by
  apply BitVec.eq_of_getLsbD_eq
  intro j hj
  simp only [BitVec.getLsbD_append, BitVec.getLsbD_extractLsb']
  by_cases h : j < 8
  · simp [h]
  · by_cases h1 : j - 8 < 8
    · simp [h, h1, show 8 + (j - 8) = j by omega]
    · by_cases h2 : j - 8 - 8 < 8
      · simp [h, h1, h2, show 16 + (j - 8 - 8) = j by omega]
      · simp [h, h1, h2, show 24 + (j - 8 - 8 - 8) = j by omega, show j - 8 - 8 - 8 < 8 by omega]

/-! ### The predicates of Machine/Flags.lean in integers -/

/-- `addOverflow` holds exactly when the exact sum does not fit (41_rtype_alu.md R180). -/
theorem addOverflow_iff (a b : Word) :
    addOverflow a b (a + b) = true ↔ ¬(-2 ^ 31 ≤ a.toInt + b.toInt ∧ a.toInt + b.toInt < 2 ^ 31) := by
  have e (w : Word) : w.getLsbD 31 = w.msb := by simp [BitVec.msb_eq_getLsbD_last]
  simp only [addOverflow, e, BitVec.msb_eq_toInt, BitVec.toInt_add]
  have ha := BitVec.two_mul_toInt_lt (x := a)
  have ha' := BitVec.le_two_mul_toInt (x := a)
  have hb := BitVec.two_mul_toInt_lt (x := b)
  have hb' := BitVec.le_two_mul_toInt (x := b)
  simp only [Int.bmod_def] at *
  by_cases h1 : a.toInt < 0 <;> by_cases h2 : b.toInt < 0 <;>
    by_cases h3 : (if (a.toInt + b.toInt) % ↑(2 ^ 32) < (↑(2 ^ 32) + 1) / 2 then (a.toInt + b.toInt) % ↑(2 ^ 32)
      else (a.toInt + b.toInt) % ↑(2 ^ 32) - ↑(2 ^ 32)) < 0 <;>
    simp [h1, h2] <;> split at h3 <;> omega

/-- `subOverflow` holds exactly when the exact difference does not fit (41_rtype_alu.md R181). -/
theorem subOverflow_iff (a b : Word) :
    subOverflow a b (a - b) = true ↔ ¬(-2 ^ 31 ≤ a.toInt - b.toInt ∧ a.toInt - b.toInt < 2 ^ 31) := by
  have e (w : Word) : w.getLsbD 31 = w.msb := by simp [BitVec.msb_eq_getLsbD_last]
  simp only [subOverflow, e, BitVec.msb_eq_toInt, BitVec.toInt_sub]
  have ha := BitVec.two_mul_toInt_lt (x := a)
  have ha' := BitVec.le_two_mul_toInt (x := a)
  have hb := BitVec.two_mul_toInt_lt (x := b)
  have hb' := BitVec.le_two_mul_toInt (x := b)
  simp only [Int.bmod_def] at *
  by_cases h1 : a.toInt < 0 <;> by_cases h2 : b.toInt < 0 <;>
    by_cases h3 : (if (a.toInt - b.toInt) % ↑(2 ^ 32) < (↑(2 ^ 32) + 1) / 2 then (a.toInt - b.toInt) % ↑(2 ^ 32)
      else (a.toInt - b.toInt) % ↑(2 ^ 32) - ↑(2 ^ 32)) < 0 <;>
    simp [h1, h2] <;> split at h3 <;> omega

end Sys2Proof.Machine
end

