-- ==== Sys2Proof/Laws/Cp0.lean ====
section
/-! SUPPORT. What each CP0 operation does, bit by bit, and that it keeps the invariants of the CP0 registers. -/

namespace Sys2Proof.Machine

/-! ### The raise (60_exceptions.md R388) -/

theorem Cp0.raise_cause (c : Cp0) (e : ExcCode) (pc : Word) (d : Bool) (j : Nat) :
    (c.raise e pc d).cause.getLsbD j =
      if j = 31 then d else if 2 ≤ j ∧ j < 7 then (excNumber e).getLsbD (j - 2) else c.cause.getLsbD j := by
  simp only [Cp0.raise, getLsbD_setBit _ 31 j d (by omega), getLsbD_insertField _ 2 (excNumber e) j (by omega)]

theorem Cp0.raise_status (c : Cp0) (e : ExcCode) (pc : Word) (d : Bool) (j : Nat) :
    (c.raise e pc d).status.getLsbD j = if j = 1 then true else c.status.getLsbD j := by
  simp only [Cp0.raise, getLsbD_setBit _ 1 j true (by omega)]

@[simp] theorem Cp0.raise_epc (c : Cp0) (e : ExcCode) (pc : Word) (d : Bool) :
    (c.raise e pc d).epc = if d then pc - 4 else pc := rfl

/-- "Cause.ExcCode == code" (R388). -/
@[simp] theorem Cp0.raise_excCode (c : Cp0) (e : ExcCode) (pc : Word) (d : Bool) :
    (c.raise e pc d).excCode = excNumber e := by
  apply BitVec.eq_of_getLsbD_eq
  intro j hj
  simp [Cp0.excCode, Cp0.raise_cause, show ¬ 2 + j = 31 by omega, show 2 + j < 7 by omega, hj,
    -BitVec.getLsbD_eq_getElem]

/-- "Cause.BD == in_delay" (R388). -/
@[simp] theorem Cp0.raise_bd (c : Cp0) (e : ExcCode) (pc : Word) (d : Bool) : (c.raise e pc d).bd = d := by
  simp [Cp0.bd, Cp0.raise_cause, -BitVec.getLsbD_eq_getElem]

/-- "Status.EXL == 1" (R388). -/
@[simp] theorem Cp0.raise_exl (c : Cp0) (e : ExcCode) (pc : Word) (d : Bool) : (c.raise e pc d).exl = true := by
  simp [Cp0.exl, Cp0.raise_status, -BitVec.getLsbD_eq_getElem]

/-- The raise leaves Cause.IP. -/
@[simp] theorem Cp0.raise_ip (c : Cp0) (e : ExcCode) (pc : Word) (d : Bool) : (c.raise e pc d).ip = c.ip := by
  apply BitVec.eq_of_getLsbD_eq
  intro j hj
  simp [Cp0.ip, Cp0.raise_cause, show ¬ 8 + j = 31 by omega, show ¬ 8 + j < 7 by omega, hj,
    -BitVec.getLsbD_eq_getElem]

/-- The raise changes Cause, Status and EPC alone. -/
theorem Cp0.raise_others (c : Cp0) (e : ExcCode) (pc : Word) (d : Bool) :
    { c.raise e pc d with cause := c.cause, status := c.status, epc := c.epc } = c := rfl

/-! ### The return (60_exceptions.md R398) -/

theorem Cp0.eret_cause (c : Cp0) (j : Nat) : c.eret.cause.getLsbD j = if j = 31 then false else c.cause.getLsbD j := by
  have h : c.eret.cause = setBit c.cause 31 false := by unfold Cp0.eret; split <;> rfl
  rw [h, getLsbD_setBit _ _ _ _ (by omega)]

theorem Cp0.eret_status (c : Cp0) (j : Nat) :
    c.eret.status.getLsbD j = if j = (if c.erl then 2 else 1) then false else c.status.getLsbD j := by
  have h : c.eret.status = setBit c.status (if c.erl then 2 else 1) false := by unfold Cp0.eret; split <;> rfl
  rw [h, getLsbD_setBit _ _ _ _ (by split <;> omega)]

/-- ERET changes Cause and Status alone. -/
theorem Cp0.eret_others (c : Cp0) : { c.eret with cause := c.cause, status := c.status } = c := by
  unfold Cp0.eret; split <;> rfl

/-! ### The timer and Random (60_exceptions.md R404, 47_cop0.md R360) -/

theorem Cp0.tick_count (c : Cp0) : c.tick.count = c.count + 1 := by
  unfold Cp0.tick; split <;> rfl

theorem Cp0.tick_cause (c : Cp0) (j : Nat) :
    c.tick.cause.getLsbD j =
      if c.compare ≠ 0 ∧ c.count + 1 = c.compare then
        if j = 15 then true else if j = 30 then true else c.cause.getLsbD j
      else c.cause.getLsbD j := by
  unfold Cp0.tick
  by_cases h : c.compare ≠ 0 ∧ c.count + 1 = c.compare
  · simp only [h, not_false_eq_true, ne_eq, and_self, if_true, getLsbD_setBit _ 15 j true (by omega),
      getLsbD_setBit _ 30 j true (by omega)]
  · simp only [h, if_false]

theorem Cp0.tick_others (c : Cp0) : { c.tick with count := c.count, cause := c.cause } = c := by
  unfold Cp0.tick; split <;> rfl

/-- The tick leaves Cause.IV and EBase, so the vectors stay. -/
theorem Cp0.tick_iv (c : Cp0) : c.tick.iv = c.iv := by
  simp [Cp0.iv, Cp0.tick_cause, -BitVec.getLsbD_eq_getElem]

theorem Cp0.tick_vectorFor (c : Cp0) (n : Nat) (e : ExcCode) : (c.tick.randomStep n).vectorFor e = c.vectorFor e := by
  have h1 : (c.tick.randomStep n).ebase = c.ebase := by simp only [Cp0.randomStep]; unfold Cp0.tick; split <;> rfl
  have h2 : (c.tick.randomStep n).iv = c.iv := Cp0.tick_iv c
  simp only [Cp0.vectorFor, Cp0.vectorBase, h1, h2]

theorem Cp0.randomStep_others (c : Cp0) (n : Nat) : { c.randomStep n with random := c.random } = c := rfl

/-- Random after its step (R360). -/
theorem Cp0.randomStep_random (c : Cp0) {n : Nat} (h1 : 1 ≤ n) (h : n ≤ 64) :
    (c.randomStep n).random.toNat = if c.random.toNat ≤ c.wired.toNat then n - 1 else c.random.toNat - 1 := by
  simp only [Cp0.randomStep]
  split
  · rw [BitVec.toNat_ofNat, Nat.mod_eq_of_lt (by omega)]
  · have := c.random.isLt
    rw [BitVec.toNat_sub]
    simp only [BitVec.ofNat_eq_ofNat, BitVec.toNat_ofNat]
    omega

/-! ### The invariants are kept -/

/-- `clampIdx` stays below TLB_SIZE (10_state.md R36). -/
theorem clampIdx_toNat {n : Nat} (h : n ≤ 64) (v : BitVec 6) : (clampIdx n v).toNat = min v.toNat (n - 1) := by
  have hv := v.isLt
  unfold clampIdx
  split
  · rw [BitVec.toNat_ofNat, Nat.mod_eq_of_lt (by omega)]; omega
  · simp only [BitVec.toNat_setWidth]; omega

/-- Index's field, for a value below 64 placed beside P. -/
theorem indexField_or (p v : Word) (hp : p &&& 0x7FFFFFFF = 0) (hv : v.toNat < 64) :
    ((p ||| v).extractLsb' 0 6).toNat = v.toNat := by
  have e : (p ||| v).extractLsb' 0 6 = v.extractLsb' 0 6 := by
    apply BitVec.eq_of_getLsbD_eq
    intro j hj
    have h0 : p.getLsbD j = false := by
      have := congrArg (·.getLsbD j) hp
      have hb : (0x7FFFFFFF#32).getLsbD j = true := by
        have : j < 6 := hj
        interval_cases j <;> rfl
      simpa [BitVec.getLsbD_and, hb, -BitVec.getLsbD_eq_getElem] using this
    simp [hj, h0, BitVec.getLsbD_or, -BitVec.getLsbD_eq_getElem]
  rw [e]
  simp only [BitVec.extractLsb'_toNat, Nat.shiftRight_zero]
  omega

/-- Bits of a masked word outside the mask are 0. -/
theorem and_and_eq_zero (w m n : Word) (h : m &&& n = 0) : (w &&& m) &&& n = 0 := by
  rw [BitVec.and_assoc, h]; simp

theorem Cp0.Inv.raise {p : Config} {c : Cp0} (h : c.Inv p) (e : ExcCode) (pc : Word) (d : Bool) :
    (c.raise e pc d).Inv p := by
  refine ⟨h.1, h.2, h.3, h.4, h.5, h.6, h.7, h.8, h.9, ?_, h.11, h.12, h.13⟩
  rw [and_eq_zero_iff]
  have hc := (and_eq_zero_iff _ _).1 h.cause_zeros
  intro j hj
  have hj32 : j < 32 := by
    by_contra hge
    rw [BitVec.getLsbD_of_ge _ _ (by omega)] at hj
    exact absurd hj (by simp)
  rw [Cp0.raise_cause]
  have := hc j hj
  interval_cases j <;> first | exact absurd hj (by decide) | simpa using this

theorem Cp0.Inv.badVAddr {p : Config} {c : Cp0} (h : c.Inv p) (a : Word) : Cp0.Inv p { c with badVAddr := a } :=
  ⟨h.1, h.2, h.3, h.4, h.5, h.6, h.7, h.8, h.9, h.10, h.11, h.12, h.13⟩

theorem Cp0.Inv.setCauseBit {p : Config} {c : Cp0} (h : c.Inv p) (i : Nat) (b : Bool) (hi : i < 32)
    (hm : (0x3F7F0083 : Word).getLsbD i = false) : Cp0.Inv p { c with cause := setBit c.cause i b } := by
  refine ⟨h.1, h.2, h.3, h.4, h.5, h.6, h.7, h.8, h.9, ?_, h.11, h.12, h.13⟩
  rw [and_eq_zero_iff]
  intro j hj
  rw [getLsbD_setBit _ _ _ _ hi]
  have : j ≠ i := by rintro rfl; rw [hm] at hj; exact absurd hj (by simp)
  simpa [this, -BitVec.getLsbD_eq_getElem] using (and_eq_zero_iff _ _).1 h.cause_zeros j hj

theorem Cp0.Inv.tick {p : Config} {c : Cp0} (h : c.Inv p) : c.tick.Inv p := by
  have h1 := (h.setCauseBit 30 true (by omega) (by decide)).setCauseBit 15 true (by omega) (by decide)
  unfold Cp0.tick
  split
  · exact ⟨h1.1, h1.2, h1.3, h1.4, h1.5, h1.6, h1.7, h1.8, h1.9, h1.10, h1.11, h1.12, h1.13⟩
  · exact ⟨h.1, h.2, h.3, h.4, h.5, h.6, h.7, h.8, h.9, h.10, h.11, h.12, h.13⟩

theorem Cp0.Inv.randomStep {p : Config} {c : Cp0} (hp : p.wf) (h : c.Inv p) : (c.randomStep p.tlbSize).Inv p := by
  have hr := Cp0.randomStep_random c hp.1 hp.2.1
  have h1 := h.wired_le_random
  have h2 := h.random_lt
  have h4 := h.wired_lt
  refine ⟨?_, ?_, h.3, h4, h.5, h.6, h.7, h.8, h.9, h.10, h.11, h.12, h.13⟩
  · show c.wired.toNat ≤ _
    rw [hr]; split <;> omega
  · rw [hr]; split <;> omega

theorem Cp0.Inv.eret {p : Config} {c : Cp0} (h : c.Inv p) : c.eret.Inv p := by
  have h1 := h.setCauseBit 31 false (by omega) (by decide)
  unfold Cp0.eret
  split <;> exact ⟨h1.1, h1.2, h1.3, h1.4, h1.5, h1.6, h1.7, h1.8, h1.9, h1.10, h1.11, h1.12, h1.13⟩

theorem Cp0.Inv.index {p : Config} {c : Cp0} (h : c.Inv p) (w : Word) (h1 : (w.extractLsb' 0 6).toNat < p.tlbSize)
    (h2 : w &&& 0x7FFFFFC0 = 0) : Cp0.Inv p { c with index := w } :=
  ⟨h.1, h.2, h1, h.4, h2, h.6, h.7, h.8, h.9, h.10, h.11, h.12, h.13⟩

/-- A word below 64 has no bit above bit 5. -/
theorem and_high_of_lt {w : Word} (h : w.toNat < 64) : w &&& 0x7FFFFFC0 = 0 := by
  rw [and_eq_zero_iff]
  intro j hj
  have : 6 ≤ j := by
    by_contra hlt
    have : j < 6 := by omega
    interval_cases j <;> exact absurd hj (by decide)
  rw [BitVec.getLsbD, Nat.testBit_lt_two_pow]
  exact Nat.lt_of_lt_of_le h (Nat.pow_le_pow_right (by omega) this : 2 ^ 6 ≤ 2 ^ j)

/-- MTC0 and `set_cp0` keep the invariants (10_state.md R70, 47_cop0.md R342). -/
theorem Cp0.Inv.write {p : Config} {c : Cp0} (hp : p.wf) (h : c.Inv p) (reg sel : Nat) (v : Word) :
    (c.write p.tlbSize reg sel v).Inv p := by
  have hT1 := hp.1
  have hT := hp.2.1
  unfold Cp0.write
  split
  · -- Index
    have hk := clampIdx_toNat hT (v.extractLsb' 0 6)
    have hlt : (clampIdx p.tlbSize (v.extractLsb' 0 6)).toNat < 64 := by omega
    refine h.index _ ?_ ?_
    · rw [indexField_or _ _ (and_and_eq_zero _ _ _ (by decide)) hlt]; omega
    · have e (a b m : Word) : (a ||| b) &&& m = (a &&& m) ||| (b &&& m) := by
        refine eq_of_bits fun j => ?_
        simp only [BitVec.getLsbD_and, BitVec.getLsbD_or]
        cases a.getLsbD j <;> cases b.getLsbD j <;> simp
      rw [e, and_and_eq_zero _ _ _ (by decide), and_high_of_lt hlt]; rfl
  · exact ⟨h.1, h.2, h.3, h.4, h.5, and_and_eq_zero _ _ _ (by decide), h.7, h.8, h.9, h.10, h.11, h.12, h.13⟩
  · exact ⟨h.1, h.2, h.3, h.4, h.5, h.6, and_and_eq_zero _ _ _ (by decide), h.8, h.9, h.10, h.11, h.12, h.13⟩
  · exact ⟨h.1, h.2, h.3, h.4, h.5, h.6, h.7, h.8, h.9, h.10, h.11, h.12, h.13⟩
  · exact ⟨h.1, h.2, h.3, h.4, h.5, h.6, h.7, and_and_eq_zero _ _ _ (by decide), h.9, h.10, h.11, h.12, h.13⟩
  · -- Wired
    have hk := clampIdx_toNat hT (v.extractLsb' 0 6)
    have hr : (BitVec.ofNat 32 (p.tlbSize - 1)).toNat = p.tlbSize - 1 := by
      rw [BitVec.toNat_ofNat, Nat.mod_eq_of_lt (by omega)]
    refine ⟨?_, ?_, h.3, ?_, h.5, h.6, h.7, h.8, h.9, h.10, h.11, h.12, h.13⟩
    · show (clampIdx _ _).toNat ≤ (BitVec.ofNat 32 (p.tlbSize - 1)).toNat
      omega
    · show (BitVec.ofNat 32 (p.tlbSize - 1)).toNat < _
      omega
    · show (clampIdx _ _).toNat < _
      omega
  · exact ⟨h.1, h.2, h.3, h.4, h.5, h.6, h.7, h.8, h.9, h.10, h.11, h.12, h.13⟩
  · exact ⟨h.1, h.2, h.3, h.4, h.5, h.6, h.7, h.8, and_and_eq_zero _ _ _ (by decide), h.10, h.11, h.12, h.13⟩
  · -- Compare
    refine ⟨h.1, h.2, h.3, h.4, h.5, h.6, h.7, h.8, h.9, ?_, h.11, h.12, h.13⟩
    show (c.cause &&& _) &&& _ = 0
    rw [BitVec.and_assoc, BitVec.and_comm (0xBFFF7FFF : Word), ← BitVec.and_assoc, h.cause_zeros]; simp
  · exact ⟨h.1, h.2, h.3, h.4, h.5, h.6, h.7, h.8, h.9, h.10, h.11, h.12, h.13⟩
  · -- Cause
    refine ⟨h.1, h.2, h.3, h.4, h.5, h.6, h.7, h.8, h.9, ?_, h.11, h.12, h.13⟩
    rw [and_eq_zero_iff]
    intro j hj
    rw [getLsbD_maskWrite]
    have hm : (0x00800300 : Word).getLsbD j = false := by
      have := congrArg (·.getLsbD j) (by decide : (0x00800300 : Word) &&& 0x3F7F0083 = 0)
      simp only [BitVec.getLsbD_and, hj, Bool.and_true] at this
      simpa only [BitVec.getLsbD_zero, BitVec.ofNat_eq_ofNat] using this
    rw [hm]
    exact (and_eq_zero_iff _ _).1 h.cause_zeros j hj
  · exact ⟨h.1, h.2, h.3, h.4, h.5, h.6, h.7, h.8, h.9, h.10, h.11, h.12, h.13⟩
  · exact ⟨h.1, h.2, h.3, h.4, h.5, h.6, h.7, h.8, h.9, h.10, h.11, h.12, h.13⟩
  · -- Config0
    refine ⟨h.1, h.2, h.3, h.4, h.5, h.6, h.7, h.8, h.9, h.10, h.11, ?_, h.13⟩
    rw [← h.config0_const]
    refine eq_of_bits fun j => ?_
    have hm := congrArg (·.getLsbD j) (by decide : (0x00000007 : Word) &&& 0xFFFFFFF8 = 0)
    simp only [BitVec.getLsbD_and, getLsbD_maskWrite] at hm ⊢
    cases h1 : (0x00000007 : Word).getLsbD j <;> cases h2 : (0xFFFFFFF8 : Word).getLsbD j <;> simp_all
  all_goals exact ⟨h.1, h.2, h.3, h.4, h.5, h.6, h.7, h.8, h.9, h.10, h.11, h.12, h.13⟩

/-! ### The TLB's registers (47_cop0.md R351) -/

/-- EntryHi as packed is the concatenation of its fields. -/
theorem TlbEntry.hiWord_eq (e : TlbEntry) : e.hiWord = e.vpn2 ++ 0#5 ++ e.asid := by
  refine BitVec.eq_of_getLsbD_eq fun j hj => ?_
  simp only [TlbEntry.hiWord, BitVec.getLsbD_or, BitVec.getLsbD_shiftLeft, BitVec.getLsbD_setWidth,
    BitVec.getLsbD_append, BitVec.getLsbD_zero]
  by_cases h1 : j < 8
  · simp [h1, hj, show j < 13 by omega, -BitVec.getLsbD_eq_getElem]
  · have h8 : e.asid.getLsbD j = false := BitVec.getLsbD_of_ge _ _ (by omega)
    by_cases h2 : j < 13
    · simp [h1, h2, h8, hj, show j - 8 < 5 by omega, -BitVec.getLsbD_eq_getElem]
    · simp [h1, h2, h8, hj, show ¬ j - 8 < 5 by omega, show j - 8 - 5 = j - 13 by omega, show j - 13 < 32 by omega,
        -BitVec.getLsbD_eq_getElem]

/-- A packed EntryLo register is the concatenation of its fields. -/
theorem packLo_eq (pfn : BitVec 20) (cc : BitVec 3) (d v g : Bool) :
    packLo pfn cc d v g = 0#6 ++ pfn ++ cc ++ BitVec.ofBool d ++ BitVec.ofBool v ++ BitVec.ofBool g := by
  have hb (b : Bool) (k j : Nat) (hj : j < 32) : (bit b <<< k).getLsbD j = (b && decide (j = k)) := by
    cases b
    · simp [bit, -BitVec.getLsbD_eq_getElem]
    · simp only [bit, BitVec.getLsbD_shiftLeft, if_true, hj, decide_true, Bool.true_and]
      by_cases h : j < k
      · simp [h, show j ≠ k by omega]
      · simp only [h, decide_false, Bool.not_false, Bool.true_and]
        show (1#32).getLsbD (j - k) = _
        rw [BitVec.getLsbD_one]
        simp; omega
  have hb0 (b : Bool) (j : Nat) (hj : j < 32) : (bit b).getLsbD j = (b && decide (j = 0)) := by
    simpa using hb b 0 j hj
  have ob (b : Bool) (j : Nat) : (BitVec.ofBool b).getLsbD j = (b && decide (j = 0)) := by
    cases b <;> simp [BitVec.getLsbD_one]
  refine BitVec.eq_of_getLsbD_eq fun j hj => ?_
  simp only [packLo, BitVec.getLsbD_or, BitVec.getLsbD_shiftLeft (n := 6), BitVec.getLsbD_shiftLeft (n := 3), hb _ _ j hj,
    hb0 _ j hj, BitVec.getLsbD_setWidth, BitVec.getLsbD_append, ob, BitVec.getLsbD_zero, hj, decide_true, Bool.true_and]
  by_cases h0 : j = 0
  · subst h0; simp
  by_cases h1 : j = 1
  · subst h1; simp
  by_cases h2 : j = 2
  · subst h2; simp
  have e1 : ¬ j < 1 := by omega
  have e2 : ¬ j - 1 < 1 := by omega
  have e3 : ¬ j - 1 - 1 < 1 := by omega
  have e4 : ¬ j < 3 := by omega
  by_cases h3 : j < 6
  · simp [h0, h1, h2, h3, e1, e2, e3, e4, show j - 1 - 1 - 1 = j - 3 by omega, show j - 3 < 3 by omega,
      show j - 3 < 32 by omega, -BitVec.getLsbD_eq_getElem]
  have hc : cc.getLsbD (j - 3) = false := BitVec.getLsbD_of_ge _ _ (by omega)
  have e5 : ¬ j - 1 - 1 - 1 < 3 := by omega
  by_cases h4 : j < 26
  · simp [h0, h1, h2, h3, e1, e2, e3, e5, hc, show j - 1 - 1 - 1 - 3 = j - 6 by omega,
      show j - 6 < 20 by omega, show j - 6 < 32 by omega, -BitVec.getLsbD_eq_getElem]
  have hp : pfn.getLsbD (j - 6) = false := BitVec.getLsbD_of_ge _ _ (by omega)
  simp [h0, h1, h2, e1, e2, e3, e5, hc, hp, show ¬ j - 1 - 1 - 1 - 3 < 20 by omega, -BitVec.getLsbD_eq_getElem]

/-- What TLBP writes to Index keeps its field below TLB_SIZE and its zero bits (10_state.md R34). -/
theorem probeResult_index (tlb : List TlbEntry) (c : Cp0) (n : Nat) (hl : tlb.length = n) (h1 : 1 ≤ n) (hn : n ≤ 64) :
    ((probeResult tlb c).extractLsb' 0 6).toNat < n ∧ probeResult tlb c &&& 0x7FFFFFC0 = 0 := by
  unfold probeResult
  split
  · rename_i i hi
    have := (List.findIdx?_eq_some_iff_getElem.1 hi).1
    have hv : (BitVec.ofNat 32 i).toNat = i := by rw [BitVec.toNat_ofNat, Nat.mod_eq_of_lt (by omega)]
    refine ⟨?_, and_high_of_lt (by omega)⟩
    simp only [BitVec.extractLsb'_toNat, hv, Nat.shiftRight_zero]
    omega
  · refine ⟨?_, by decide⟩
    show (BitVec.extractLsb' 0 6 (0x80000000#32)).toNat < n
    have : (BitVec.extractLsb' 0 6 (0x80000000#32)).toNat = 0 := by decide
    omega

/-- A packed EntryLo register has zeros in bits 31:26 (47_cop0.md R351). -/
theorem packLo_high (pfn : BitVec 20) (cc : BitVec 3) (d v g : Bool) (j : Nat) (h : 26 ≤ j) :
    (packLo pfn cc d v g).getLsbD j = false := by
  rw [packLo_eq]
  simp only [BitVec.getLsbD_append, BitVec.getLsbD_zero]
  simp [show ¬ j < 1 by omega, show ¬ j - 1 < 1 by omega, show ¬ j - 1 - 1 < 1 by omega,
    show ¬ j - 1 - 1 - 1 < 3 by omega, show ¬ j - 1 - 1 - 1 - 3 < 20 by omega]

/-- Bits 31:30 of a packed EntryLo register are 0. -/
theorem packLo_zeros (pfn : BitVec 20) (cc : BitVec 3) (d v g : Bool) : packLo pfn cc d v g &&& 0xC0000000 = 0 := by
  rw [and_eq_zero_iff]
  intro j hj
  refine packLo_high _ _ _ _ _ _ ?_
  by_contra hlt
  have : j < 26 := by omega
  interval_cases j <;> exact absurd hj (by decide)

/-- TLBR keeps the invariants (47_cop0.md R351). -/
theorem Cp0.Inv.fromEntry {p : Config} {c : Cp0} (h : c.Inv p) (e : TlbEntry) : (c.fromEntry e).Inv p := by
  refine ⟨h.1, h.2, h.3, h.4, h.5, packLo_zeros _ _ _ _ _, packLo_zeros _ _ _ _ _, ?_, ?_, h.10, h.11, h.12, h.13⟩
  · show (e.mask.setWidth 32 <<< 13) &&& _ = 0
    rw [and_eq_zero_iff]
    intro j hj
    have : j < 13 ∨ 25 ≤ j := by
      by_contra hlt
      have h1 : 13 ≤ j := by omega
      have h2 : j < 25 := by omega
      interval_cases j <;> exact absurd hj (by decide)
    simp only [BitVec.getLsbD_shiftLeft, BitVec.getLsbD_setWidth]
    rcases this with h | h
    · simp [h]
    · rw [BitVec.getLsbD_of_ge e.mask (j - 13) (by omega)]; simp
  · show e.hiWord &&& _ = 0
    rw [TlbEntry.hiWord_eq, and_eq_zero_iff]
    intro j hj
    have : 8 ≤ j ∧ j < 13 := by
      by_contra hlt
      have : j < 32 := by
        by_contra hge
        rw [BitVec.getLsbD_of_ge _ _ (by omega)] at hj
        exact absurd hj (by simp)
      interval_cases j <;> first | exact absurd hj (by decide) | exact hlt (by omega)
    simp only [BitVec.getLsbD_append, BitVec.getLsbD_zero]
    simp [show ¬ j < 8 by omega, show j - 8 < 5 by omega]

end Sys2Proof.Machine
end

