-- ==== Sys2Proof/Laws/Decode.lean ====
section
/-! SUPPORT. The fields of each encoded form (30_encoding.md R112 to R115), and its bits under each mask of the opcode table. -/

namespace Sys2Proof

open BitVec

/-! ### Fields of the encoded forms -/

theorem encodeR_fields (rs rt rd sh fn : Nat) :
    opOf (encodeR rs rt rd sh fn) = 0 ∧ rsOf (encodeR rs rt rd sh fn) = rs % 32 ∧ rtOf (encodeR rs rt rd sh fn) = rt % 32 ∧
    rdOf (encodeR rs rt rd sh fn) = rd % 32 ∧ shamtOf (encodeR rs rt rd sh fn) = sh % 32 ∧
    functOf (encodeR rs rt rd sh fn) = fn % 64 := by
  simp only [opOf, rsOf, rtOf, rdOf, shamtOf, functOf, encodeR]
  refine ⟨?_, ?_, ?_, ?_, ?_, ?_⟩ <;>
    simp (disch := omega) only [extractLsb'_append_eq_of_add_le, extractLsb'_append_eq_of_le, Nat.reduceSub,
      extractLsb'_eq_self, toNat_ofNat]

theorem encodeTrap_fields (rs rt : Nat) (code : BitVec 10) (fn : Nat) :
    opOf (encodeTrap rs rt code fn) = 0 ∧ rsOf (encodeTrap rs rt code fn) = rs % 32 ∧
    rtOf (encodeTrap rs rt code fn) = rt % 32 ∧ trapCodeOf (encodeTrap rs rt code fn) = code ∧
    functOf (encodeTrap rs rt code fn) = fn % 64 := by
  simp only [opOf, rsOf, rtOf, trapCodeOf, functOf, encodeTrap]
  refine ⟨?_, ?_, ?_, ?_, ?_⟩ <;>
    simp (disch := omega) only [extractLsb'_append_eq_of_add_le, extractLsb'_append_eq_of_le, Nat.reduceSub,
      extractLsb'_eq_self, toNat_ofNat]

theorem encodeSys_fields (code : BitVec 20) (fn : Nat) :
    opOf (encodeSys code fn) = 0 ∧ sysCodeOf (encodeSys code fn) = code ∧ functOf (encodeSys code fn) = fn % 64 := by
  simp only [opOf, sysCodeOf, functOf, encodeSys]
  refine ⟨?_, ?_, ?_⟩ <;>
    simp (disch := omega) only [extractLsb'_append_eq_of_add_le, extractLsb'_append_eq_of_le, Nat.reduceSub,
      extractLsb'_eq_self, toNat_ofNat]

theorem encodeI_fields (op rs rt : Nat) (imm : BitVec 16) :
    opOf (encodeI op rs rt imm) = op % 64 ∧ rsOf (encodeI op rs rt imm) = rs % 32 ∧
    rtOf (encodeI op rs rt imm) = rt % 32 ∧ immOf (encodeI op rs rt imm) = imm := by
  simp only [opOf, rsOf, rtOf, immOf, encodeI]
  refine ⟨?_, ?_, ?_, ?_⟩ <;>
    simp (disch := omega) only [extractLsb'_append_eq_of_add_le, extractLsb'_append_eq_of_le, Nat.reduceSub,
      extractLsb'_eq_self, toNat_ofNat]

theorem encodeJ_fields (op : Nat) (target : BitVec 26) :
    opOf (encodeJ op target) = op % 64 ∧ targetOf (encodeJ op target) = target := by
  simp only [opOf, targetOf, encodeJ]
  refine ⟨?_, ?_⟩ <;>
    simp (disch := omega) only [extractLsb'_append_eq_of_add_le, extractLsb'_append_eq_of_le, Nat.reduceSub,
      extractLsb'_eq_self, toNat_ofNat]

theorem encodeMoveC0_fields (rs rt rd sel : Nat) :
    opOf (encodeMoveC0 rs rt rd sel) = 0x10 ∧ rsOf (encodeMoveC0 rs rt rd sel) = rs % 32 ∧
    rtOf (encodeMoveC0 rs rt rd sel) = rt % 32 ∧ rdOf (encodeMoveC0 rs rt rd sel) = rd % 32 ∧
    selOf (encodeMoveC0 rs rt rd sel) = sel % 8 := by
  simp only [opOf, rsOf, rtOf, rdOf, selOf, encodeMoveC0]
  refine ⟨?_, ?_, ?_, ?_, ?_⟩ <;>
    simp (disch := omega) only [extractLsb'_append_eq_of_add_le, extractLsb'_append_eq_of_le, Nat.reduceSub,
      extractLsb'_eq_self, toNat_ofNat]

theorem encodeCo_fields (fn : Nat) :
    opOf (encodeCo fn) = 0x10 ∧ rsOf (encodeCo fn) = 0x10 ∧ functOf (encodeCo fn) = fn % 64 := by
  simp only [opOf, rsOf, functOf, encodeCo]
  refine ⟨?_, ?_, ?_⟩ <;>
    simp (disch := omega) only [extractLsb'_append_eq_of_add_le, extractLsb'_append_eq_of_le, Nat.reduceSub,
      extractLsb'_eq_self, toNat_ofNat]

/-! ### Masks: the bits of a word that each kind of row looks at -/

/-- Bits 31:26 and 5:0, the rows with op = 0x00 (R119). -/
theorem and_special (w : Word) : w &&& 0xFC00003F = w.extractLsb' 26 6 ++ 0#20 ++ w.extractLsb' 0 6 := by
  refine BitVec.eq_of_getLsbD_eq fun j hj => ?_
  have hm : (0xFC00003F : Word).getLsbD j = decide (j < 6 ∨ 26 ≤ j) := by revert j; decide
  rw [getLsbD_and, hm]
  simp only [getLsbD_append, getLsbD_extractLsb', getLsbD_zero]
  by_cases h1 : j < 6
  · simp [h1, -getLsbD_eq_getElem]
  · by_cases h2 : j < 26
    · simp [h1, h2, show j - 6 < 20 by omega, -getLsbD_eq_getElem]
    · simp [h1, show ¬ j - 6 < 20 by omega, show 26 ≤ j by omega, show j - 6 - 20 < 6 by omega,
        show 26 + (j - 6 - 20) = j by omega, -getLsbD_eq_getElem]

/-- Bits 31:26, the rows of the major opcodes (R120). -/
theorem and_major (w : Word) : w &&& 0xFC000000 = w.extractLsb' 26 6 ++ 0#26 := by
  refine BitVec.eq_of_getLsbD_eq fun j hj => ?_
  have hm : (0xFC000000 : Word).getLsbD j = decide (26 ≤ j) := by revert j; decide
  rw [getLsbD_and, hm]
  simp only [getLsbD_append, getLsbD_extractLsb', getLsbD_zero]
  by_cases h1 : j < 26
  · simp [h1, -getLsbD_eq_getElem]
  · simp [h1, show 26 ≤ j by omega, show j - 26 < 6 by omega, show 26 + (j - 26) = j by omega, -getLsbD_eq_getElem]

/-- Bits 31:26 and 20:16, the REGIMM rows (R121). -/
theorem and_regimm (w : Word) : w &&& 0xFC1F0000 = w.extractLsb' 26 6 ++ 0#5 ++ w.extractLsb' 16 5 ++ 0#16 := by
  refine BitVec.eq_of_getLsbD_eq fun j hj => ?_
  have hm : (0xFC1F0000 : Word).getLsbD j = decide ((16 ≤ j ∧ j < 21) ∨ 26 ≤ j) := by revert j; decide
  rw [getLsbD_and, hm]
  simp only [getLsbD_append, getLsbD_extractLsb', getLsbD_zero]
  by_cases h1 : j < 16
  · simp [h1, show ¬ 16 ≤ j by omega, show ¬ 26 ≤ j by omega, -getLsbD_eq_getElem]
  · by_cases h2 : j < 21
    · simp [h1, h2, show 16 ≤ j by omega, show j - 16 < 5 by omega, show 16 + (j - 16) = j by omega, -getLsbD_eq_getElem]
    · by_cases h3 : j < 26
      · simp [h1, h2, show ¬ j - 16 < 5 by omega, show j - 16 - 5 < 5 by omega, show ¬ 26 ≤ j by omega,
          -getLsbD_eq_getElem]
      · simp [h1, show ¬ j - 16 < 5 by omega, show ¬ j - 16 - 5 < 5 by omega, show 26 ≤ j by omega,
          show j - 16 - 5 - 5 < 6 by omega, show 26 + (j - 16 - 5 - 5) = j by omega, -getLsbD_eq_getElem]

/-- Bits 31:21, the rows of MFC0 and MTC0 (R122). -/
theorem and_moveC0 (w : Word) : w &&& 0xFFE00000 = w.extractLsb' 26 6 ++ w.extractLsb' 21 5 ++ 0#21 := by
  refine BitVec.eq_of_getLsbD_eq fun j hj => ?_
  have hm : (0xFFE00000 : Word).getLsbD j = decide (21 ≤ j) := by revert j; decide
  rw [getLsbD_and, hm]
  simp only [getLsbD_append, getLsbD_extractLsb', getLsbD_zero]
  by_cases h1 : j < 21
  · simp [h1, -getLsbD_eq_getElem]
  · by_cases h2 : j < 26
    · simp [h1, show 21 ≤ j by omega, show j - 21 < 5 by omega, show 21 + (j - 21) = j by omega, -getLsbD_eq_getElem]
    · simp [h1, show 21 ≤ j by omega, show ¬ j - 21 < 5 by omega, show j - 21 - 5 < 6 by omega,
        show 26 + (j - 21 - 5) = j by omega, -getLsbD_eq_getElem]

/-- Bits 31:21 and 5:0, the CO rows (R122). -/
theorem and_co (w : Word) :
    w &&& 0xFFE0003F = w.extractLsb' 26 6 ++ w.extractLsb' 21 5 ++ 0#15 ++ w.extractLsb' 0 6 := by
  refine BitVec.eq_of_getLsbD_eq fun j hj => ?_
  have hm : (0xFFE0003F : Word).getLsbD j = decide (j < 6 ∨ 21 ≤ j) := by revert j; decide
  rw [getLsbD_and, hm]
  simp only [getLsbD_append, getLsbD_extractLsb', getLsbD_zero]
  by_cases h0 : j < 6
  · simp [h0, -getLsbD_eq_getElem]
  · by_cases h1 : j < 21
    · simp [h0, h1, show j - 6 < 15 by omega, -getLsbD_eq_getElem]
    · by_cases h2 : j < 26
      · simp [h0, show ¬ j - 6 < 15 by omega, show 21 ≤ j by omega, show j - 6 - 15 < 5 by omega,
          show 21 + (j - 6 - 15) = j by omega, -getLsbD_eq_getElem]
      · simp [h0, show ¬ j - 6 < 15 by omega, show 21 ≤ j by omega, show ¬ j - 6 - 15 < 5 by omega,
          show j - 6 - 15 - 5 < 6 by omega, show 26 + (j - 6 - 15 - 5) = j by omega, -getLsbD_eq_getElem]

/-! ### The fixed bits of the encoded forms -/

theorem encodeR_fixed (rs rt rd sh fn : Nat) : encodeR rs rt rd sh fn &&& 0xFC00003F = 0#6 ++ 0#20 ++ BitVec.ofNat 6 fn := by
  rw [and_special, encodeR]
  simp (disch := omega) only [extractLsb'_append_eq_of_add_le, extractLsb'_append_eq_of_le, Nat.reduceSub,
    extractLsb'_eq_self]

theorem encodeTrap_fixed (rs rt : Nat) (code : BitVec 10) (fn : Nat) :
    encodeTrap rs rt code fn &&& 0xFC00003F = 0#6 ++ 0#20 ++ BitVec.ofNat 6 fn := by
  rw [and_special, encodeTrap]
  simp (disch := omega) only [extractLsb'_append_eq_of_add_le, extractLsb'_append_eq_of_le, Nat.reduceSub,
    extractLsb'_eq_self]

theorem encodeSys_fixed (code : BitVec 20) (fn : Nat) :
    encodeSys code fn &&& 0xFC00003F = 0#6 ++ 0#20 ++ BitVec.ofNat 6 fn := by
  rw [and_special, encodeSys]
  simp (disch := omega) only [extractLsb'_append_eq_of_add_le, extractLsb'_append_eq_of_le, Nat.reduceSub,
    extractLsb'_eq_self]

theorem encodeI_fixed (op rs rt : Nat) (imm : BitVec 16) : encodeI op rs rt imm &&& 0xFC000000 = BitVec.ofNat 6 op ++ 0#26 := by
  rw [and_major, encodeI]
  simp (disch := omega) only [extractLsb'_append_eq_of_le, Nat.reduceSub,
    extractLsb'_eq_self]

theorem encodeI_fixed_regimm (op rs rt : Nat) (imm : BitVec 16) :
    encodeI op rs rt imm &&& 0xFC1F0000 = BitVec.ofNat 6 op ++ 0#5 ++ BitVec.ofNat 5 rt ++ 0#16 := by
  rw [and_regimm, encodeI]
  simp (disch := omega) only [extractLsb'_append_eq_of_add_le, extractLsb'_append_eq_of_le, Nat.reduceSub,
    extractLsb'_eq_self]

theorem encodeJ_fixed (op : Nat) (target : BitVec 26) : encodeJ op target &&& 0xFC000000 = BitVec.ofNat 6 op ++ 0#26 := by
  rw [and_major, encodeJ]
  simp (disch := omega) only [extractLsb'_append_eq_of_le, Nat.reduceSub, extractLsb'_eq_self]

theorem encodeMoveC0_fixed (rs rt rd sel : Nat) :
    encodeMoveC0 rs rt rd sel &&& 0xFFE00000 = BitVec.ofNat 6 0x10 ++ BitVec.ofNat 5 rs ++ 0#21 := by
  rw [and_moveC0, encodeMoveC0]
  simp (disch := omega) only [extractLsb'_append_eq_of_add_le, extractLsb'_append_eq_of_le, Nat.reduceSub,
    extractLsb'_eq_self]

theorem encodeCo_fixed (fn : Nat) :
    encodeCo fn &&& 0xFFE0003F = BitVec.ofNat 6 0x10 ++ BitVec.ofNat 5 0x10 ++ 0#15 ++ BitVec.ofNat 6 fn := by
  rw [and_co, encodeCo]
  simp (disch := omega) only [extractLsb'_append_eq_of_add_le, extractLsb'_append_eq_of_le, Nat.reduceSub,
    extractLsb'_eq_self]

end Sys2Proof
end

