-- ==== Sys2Proof/Laws/State.lean ====
section
/-! SUPPORT. One lemma per field per named update of the state, each true by definition, and what an update does to the
accessors. -/

namespace Sys2Proof.Machine

variable (s : State)

/-! ### writeGpr -/

@[simp] theorem State.writeGpr_gpr (n : Nat) (v : Word) : (s.writeGpr n v).gpr = if n = 0 then s.gpr else s.gpr.setIfInBounds n v := rfl
@[simp] theorem State.writeGpr_pc (n : Nat) (v : Word) : (s.writeGpr n v).pc = s.pc := rfl
@[simp] theorem State.writeGpr_hi (n : Nat) (v : Word) : (s.writeGpr n v).hi = s.hi := rfl
@[simp] theorem State.writeGpr_lo (n : Nat) (v : Word) : (s.writeGpr n v).lo = s.lo := rfl
@[simp] theorem State.writeGpr_inDelay (n : Nat) (v : Word) : (s.writeGpr n v).inDelay = s.inDelay := rfl
@[simp] theorem State.writeGpr_branchTarget (n : Nat) (v : Word) : (s.writeGpr n v).branchTarget = s.branchTarget := rfl
@[simp] theorem State.writeGpr_running (n : Nat) (v : Word) : (s.writeGpr n v).running = s.running := rfl
@[simp] theorem State.writeGpr_cp0 (n : Nat) (v : Word) : (s.writeGpr n v).cp0 = s.cp0 := rfl
@[simp] theorem State.writeGpr_tlb (n : Nat) (v : Word) : (s.writeGpr n v).tlb = s.tlb := rfl
@[simp] theorem State.writeGpr_mem (n : Nat) (v : Word) : (s.writeGpr n v).mem = s.mem := rfl
@[simp] theorem State.writeGpr_cfg (n : Nat) (v : Word) : (s.writeGpr n v).cfg = s.cfg := rfl
@[simp] theorem State.writeGpr_readByte (n : Nat) (v : Word) (b : Nat) : (s.writeGpr n v).readByte b = s.readByte b := rfl

/-! ### setHiLo -/

@[simp] theorem State.setHiLo_gpr (h l : Word) : (s.setHiLo h l).gpr = s.gpr := rfl
@[simp] theorem State.setHiLo_pc (h l : Word) : (s.setHiLo h l).pc = s.pc := rfl
@[simp] theorem State.setHiLo_hi (h l : Word) : (s.setHiLo h l).hi = h := rfl
@[simp] theorem State.setHiLo_lo (h l : Word) : (s.setHiLo h l).lo = l := rfl
@[simp] theorem State.setHiLo_inDelay (h l : Word) : (s.setHiLo h l).inDelay = s.inDelay := rfl
@[simp] theorem State.setHiLo_branchTarget (h l : Word) : (s.setHiLo h l).branchTarget = s.branchTarget := rfl
@[simp] theorem State.setHiLo_running (h l : Word) : (s.setHiLo h l).running = s.running := rfl
@[simp] theorem State.setHiLo_cp0 (h l : Word) : (s.setHiLo h l).cp0 = s.cp0 := rfl
@[simp] theorem State.setHiLo_tlb (h l : Word) : (s.setHiLo h l).tlb = s.tlb := rfl
@[simp] theorem State.setHiLo_mem (h l : Word) : (s.setHiLo h l).mem = s.mem := rfl
@[simp] theorem State.setHiLo_cfg (h l : Word) : (s.setHiLo h l).cfg = s.cfg := rfl
@[simp] theorem State.setHiLo_readGpr (h l : Word) (k : Nat) : (s.setHiLo h l).readGpr k = s.readGpr k := rfl
@[simp] theorem State.setHiLo_readByte (h l : Word) (b : Nat) : (s.setHiLo h l).readByte b = s.readByte b := rfl

/-! ### setCp0 -/

@[simp] theorem State.setCp0_gpr (c : Cp0) : (s.setCp0 c).gpr = s.gpr := rfl
@[simp] theorem State.setCp0_pc (c : Cp0) : (s.setCp0 c).pc = s.pc := rfl
@[simp] theorem State.setCp0_hi (c : Cp0) : (s.setCp0 c).hi = s.hi := rfl
@[simp] theorem State.setCp0_lo (c : Cp0) : (s.setCp0 c).lo = s.lo := rfl
@[simp] theorem State.setCp0_inDelay (c : Cp0) : (s.setCp0 c).inDelay = s.inDelay := rfl
@[simp] theorem State.setCp0_branchTarget (c : Cp0) : (s.setCp0 c).branchTarget = s.branchTarget := rfl
@[simp] theorem State.setCp0_running (c : Cp0) : (s.setCp0 c).running = s.running := rfl
@[simp] theorem State.setCp0_cp0 (c : Cp0) : (s.setCp0 c).cp0 = c := rfl
@[simp] theorem State.setCp0_tlb (c : Cp0) : (s.setCp0 c).tlb = s.tlb := rfl
@[simp] theorem State.setCp0_mem (c : Cp0) : (s.setCp0 c).mem = s.mem := rfl
@[simp] theorem State.setCp0_cfg (c : Cp0) : (s.setCp0 c).cfg = s.cfg := rfl
@[simp] theorem State.setCp0_readGpr (c : Cp0) (k : Nat) : (s.setCp0 c).readGpr k = s.readGpr k := rfl
@[simp] theorem State.setCp0_readByte (c : Cp0) (b : Nat) : (s.setCp0 c).readByte b = s.readByte b := rfl

/-! ### setMem -/

@[simp] theorem State.setMem_gpr (m : Memory) : (s.setMem m).gpr = s.gpr := rfl
@[simp] theorem State.setMem_pc (m : Memory) : (s.setMem m).pc = s.pc := rfl
@[simp] theorem State.setMem_hi (m : Memory) : (s.setMem m).hi = s.hi := rfl
@[simp] theorem State.setMem_lo (m : Memory) : (s.setMem m).lo = s.lo := rfl
@[simp] theorem State.setMem_inDelay (m : Memory) : (s.setMem m).inDelay = s.inDelay := rfl
@[simp] theorem State.setMem_branchTarget (m : Memory) : (s.setMem m).branchTarget = s.branchTarget := rfl
@[simp] theorem State.setMem_running (m : Memory) : (s.setMem m).running = s.running := rfl
@[simp] theorem State.setMem_cp0 (m : Memory) : (s.setMem m).cp0 = s.cp0 := rfl
@[simp] theorem State.setMem_tlb (m : Memory) : (s.setMem m).tlb = s.tlb := rfl
@[simp] theorem State.setMem_mem (m : Memory) : (s.setMem m).mem = m := rfl
@[simp] theorem State.setMem_cfg (m : Memory) : (s.setMem m).cfg = s.cfg := rfl
@[simp] theorem State.setMem_readGpr (m : Memory) (k : Nat) : (s.setMem m).readGpr k = s.readGpr k := rfl

/-! ### setTlb -/

@[simp] theorem State.setTlb_gpr (t : List TlbEntry) : (s.setTlb t).gpr = s.gpr := rfl
@[simp] theorem State.setTlb_pc (t : List TlbEntry) : (s.setTlb t).pc = s.pc := rfl
@[simp] theorem State.setTlb_hi (t : List TlbEntry) : (s.setTlb t).hi = s.hi := rfl
@[simp] theorem State.setTlb_lo (t : List TlbEntry) : (s.setTlb t).lo = s.lo := rfl
@[simp] theorem State.setTlb_inDelay (t : List TlbEntry) : (s.setTlb t).inDelay = s.inDelay := rfl
@[simp] theorem State.setTlb_branchTarget (t : List TlbEntry) : (s.setTlb t).branchTarget = s.branchTarget := rfl
@[simp] theorem State.setTlb_running (t : List TlbEntry) : (s.setTlb t).running = s.running := rfl
@[simp] theorem State.setTlb_cp0 (t : List TlbEntry) : (s.setTlb t).cp0 = s.cp0 := rfl
@[simp] theorem State.setTlb_tlb (t : List TlbEntry) : (s.setTlb t).tlb = t := rfl
@[simp] theorem State.setTlb_mem (t : List TlbEntry) : (s.setTlb t).mem = s.mem := rfl
@[simp] theorem State.setTlb_cfg (t : List TlbEntry) : (s.setTlb t).cfg = s.cfg := rfl
@[simp] theorem State.setTlb_readGpr (t : List TlbEntry) (k : Nat) : (s.setTlb t).readGpr k = s.readGpr k := rfl
@[simp] theorem State.setTlb_readByte (t : List TlbEntry) (b : Nat) : (s.setTlb t).readByte b = s.readByte b := rfl

/-! ### setBadVAddr -/

@[simp] theorem State.setBadVAddr_gpr (a : Word) : (s.setBadVAddr a).gpr = s.gpr := rfl
@[simp] theorem State.setBadVAddr_pc (a : Word) : (s.setBadVAddr a).pc = s.pc := rfl
@[simp] theorem State.setBadVAddr_hi (a : Word) : (s.setBadVAddr a).hi = s.hi := rfl
@[simp] theorem State.setBadVAddr_lo (a : Word) : (s.setBadVAddr a).lo = s.lo := rfl
@[simp] theorem State.setBadVAddr_inDelay (a : Word) : (s.setBadVAddr a).inDelay = s.inDelay := rfl
@[simp] theorem State.setBadVAddr_branchTarget (a : Word) : (s.setBadVAddr a).branchTarget = s.branchTarget := rfl
@[simp] theorem State.setBadVAddr_running (a : Word) : (s.setBadVAddr a).running = s.running := rfl
@[simp] theorem State.setBadVAddr_cp0 (a : Word) : (s.setBadVAddr a).cp0 = { s.cp0 with badVAddr := a } := rfl
@[simp] theorem State.setBadVAddr_tlb (a : Word) : (s.setBadVAddr a).tlb = s.tlb := rfl
@[simp] theorem State.setBadVAddr_mem (a : Word) : (s.setBadVAddr a).mem = s.mem := rfl
@[simp] theorem State.setBadVAddr_cfg (a : Word) : (s.setBadVAddr a).cfg = s.cfg := rfl
@[simp] theorem State.setBadVAddr_readGpr (a : Word) (k : Nat) : (s.setBadVAddr a).readGpr k = s.readGpr k := rfl
@[simp] theorem State.setBadVAddr_readByte (a : Word) (b : Nat) : (s.setBadVAddr a).readByte b = s.readByte b := rfl

/-! ### tick -/

@[simp] theorem State.tick_gpr : (s.tick).gpr = s.gpr := rfl
@[simp] theorem State.tick_pc : (s.tick).pc = s.pc := rfl
@[simp] theorem State.tick_hi : (s.tick).hi = s.hi := rfl
@[simp] theorem State.tick_lo : (s.tick).lo = s.lo := rfl
@[simp] theorem State.tick_inDelay : (s.tick).inDelay = s.inDelay := rfl
@[simp] theorem State.tick_branchTarget : (s.tick).branchTarget = s.branchTarget := rfl
@[simp] theorem State.tick_running : (s.tick).running = s.running := rfl
@[simp] theorem State.tick_cp0 : (s.tick).cp0 = s.cp0.tick.randomStep s.cfg.tlbSize := rfl
@[simp] theorem State.tick_tlb : (s.tick).tlb = s.tlb := rfl
@[simp] theorem State.tick_mem : (s.tick).mem = s.mem := rfl
@[simp] theorem State.tick_cfg : (s.tick).cfg = s.cfg := rfl
@[simp] theorem State.tick_readGpr (k : Nat) : (s.tick).readGpr k = s.readGpr k := rfl
@[simp] theorem State.tick_readByte (b : Nat) : (s.tick).readByte b = s.readByte b := rfl

/-! ### raise -/

@[simp] theorem State.raise_gpr (e : ExcCode) : (s.raise e).gpr = s.gpr := rfl
@[simp] theorem State.raise_pc (e : ExcCode) : (s.raise e).pc = s.cp0.vectorFor e := rfl
@[simp] theorem State.raise_hi (e : ExcCode) : (s.raise e).hi = s.hi := rfl
@[simp] theorem State.raise_lo (e : ExcCode) : (s.raise e).lo = s.lo := rfl
@[simp] theorem State.raise_inDelay (e : ExcCode) : (s.raise e).inDelay = false := rfl
@[simp] theorem State.raise_branchTarget (e : ExcCode) : (s.raise e).branchTarget = s.branchTarget := rfl
@[simp] theorem State.raise_running (e : ExcCode) : (s.raise e).running = if e ∈ s.cfg.haltCodes then false else s.running := rfl
@[simp] theorem State.raise_cp0 (e : ExcCode) : (s.raise e).cp0 = s.cp0.raise e s.pc s.inDelay := rfl
@[simp] theorem State.raise_tlb (e : ExcCode) : (s.raise e).tlb = s.tlb := rfl
@[simp] theorem State.raise_mem (e : ExcCode) : (s.raise e).mem = s.mem := rfl
@[simp] theorem State.raise_cfg (e : ExcCode) : (s.raise e).cfg = s.cfg := rfl
@[simp] theorem State.raise_readGpr (e : ExcCode) (k : Nat) : (s.raise e).readGpr k = s.readGpr k := rfl
@[simp] theorem State.raise_readByte (e : ExcCode) (b : Nat) : (s.raise e).readByte b = s.readByte b := rfl

/-! ### addressError -/

@[simp] theorem State.addressError_gpr (e : ExcCode) (a : Word) : (s.addressError e a).gpr = s.gpr := rfl
@[simp] theorem State.addressError_pc (e : ExcCode) (a : Word) : (s.addressError e a).pc = s.cp0.vectorFor e := rfl
@[simp] theorem State.addressError_hi (e : ExcCode) (a : Word) : (s.addressError e a).hi = s.hi := rfl
@[simp] theorem State.addressError_lo (e : ExcCode) (a : Word) : (s.addressError e a).lo = s.lo := rfl
@[simp] theorem State.addressError_inDelay (e : ExcCode) (a : Word) : (s.addressError e a).inDelay = false := rfl
@[simp] theorem State.addressError_branchTarget (e : ExcCode) (a : Word) : (s.addressError e a).branchTarget = s.branchTarget := rfl
@[simp] theorem State.addressError_running (e : ExcCode) (a : Word) : (s.addressError e a).running = if e ∈ s.cfg.haltCodes then false else s.running := rfl
@[simp] theorem State.addressError_cp0 (e : ExcCode) (a : Word) : (s.addressError e a).cp0 = Cp0.raise { s.cp0 with badVAddr := a } e s.pc s.inDelay := rfl
@[simp] theorem State.addressError_tlb (e : ExcCode) (a : Word) : (s.addressError e a).tlb = s.tlb := rfl
@[simp] theorem State.addressError_mem (e : ExcCode) (a : Word) : (s.addressError e a).mem = s.mem := rfl
@[simp] theorem State.addressError_cfg (e : ExcCode) (a : Word) : (s.addressError e a).cfg = s.cfg := rfl
@[simp] theorem State.addressError_readGpr (e : ExcCode) (a : Word) (k : Nat) : (s.addressError e a).readGpr k = s.readGpr k := rfl
@[simp] theorem State.addressError_readByte (e : ExcCode) (a : Word) (b : Nat) : (s.addressError e a).readByte b = s.readByte b := rfl

/-! ### retire -/

@[simp] theorem State.retire_gpr : (s.retire).gpr = s.gpr := rfl
@[simp] theorem State.retire_pc : (s.retire).pc = if s.inDelay then s.branchTarget else s.pc + 4 := rfl
@[simp] theorem State.retire_hi : (s.retire).hi = s.hi := rfl
@[simp] theorem State.retire_lo : (s.retire).lo = s.lo := rfl
@[simp] theorem State.retire_inDelay : (s.retire).inDelay = false := rfl
@[simp] theorem State.retire_branchTarget : (s.retire).branchTarget = s.branchTarget := rfl
@[simp] theorem State.retire_running : (s.retire).running = s.running := rfl
@[simp] theorem State.retire_cp0 : (s.retire).cp0 = s.cp0 := rfl
@[simp] theorem State.retire_tlb : (s.retire).tlb = s.tlb := rfl
@[simp] theorem State.retire_mem : (s.retire).mem = s.mem := rfl
@[simp] theorem State.retire_cfg : (s.retire).cfg = s.cfg := rfl
@[simp] theorem State.retire_readGpr (k : Nat) : (s.retire).readGpr k = s.readGpr k := rfl
@[simp] theorem State.retire_readByte (b : Nat) : (s.retire).readByte b = s.readByte b := rfl

@[simp] theorem State.setMem_readByte (m : Memory) (b : Nat) : (s.setMem m).readByte b = m.read b := rfl

/-! ### General registers -/

/-- Register 0 reads 0 (10_state.md R21). -/
@[simp] theorem State.readGpr_zero : s.readGpr 0 = 0 := rfl

/-- Reading after a write: the value for the register written, unless it is 0 or no register; any other is unchanged. -/
theorem State.readGpr_writeGpr (n k : Nat) (v : Word) :
    (s.writeGpr n v).readGpr k = if k = n ∧ n ≠ 0 ∧ n < 32 then v else s.readGpr k := by
  unfold State.readGpr State.writeGpr
  by_cases h0 : n = 0
  · simp [h0]
  · by_cases hk : k = 0
    · subst hk; simp [Ne.symm h0]
    · by_cases hn : n < 32
      · by_cases e : k = n
        · subst e; simp [h0, hn, Vector.setIfInBounds]
        · simp [h0, hk, e, hn, Ne.symm e]
      · by_cases e : k = n
        · subst e; simp [h0, hn]
        · simp [h0, hk, e, Ne.symm e]

theorem State.readGpr_writeGpr_of_ne {n k : Nat} (v : Word) (h : k ≠ n) : (s.writeGpr n v).readGpr k = s.readGpr k := by
  simp [State.readGpr_writeGpr, h]

/-- The register written, for a register number. -/
theorem State.readGpr_writeGpr_self {n : Nat} (v : Word) (h : n < 32) :
    (s.writeGpr n v).readGpr n = if n = 0 then 0 else v := by
  by_cases h0 : n = 0
  · subst h0; simp
  · simp [State.readGpr_writeGpr, h0, h]

/-- Slot 0 of the register file is never written (10_state.md R21). -/
theorem State.writeGpr_slot_zero (n : Nat) (v : Word) : (s.writeGpr n v).gpr[0] = s.gpr[0] := by
  unfold State.writeGpr
  by_cases h0 : n = 0 <;> simp [h0]

end Sys2Proof.Machine
end

