-- ==== Sys2Proof/Laws/Memory.lean ====
section
/-! SUPPORT. The laws of the byte array: a read after a write, and that every memory operation keeps the canonical form
and the bound MEM_SIZE. -/

namespace Sys2Proof.Machine

/-! ### Reads -/

theorem Memory.read_put (a b : Nat) (v : Byte) (m : Memory) (h : m.read a = Memory.unlisted) :
    (Memory.put a v m).read b = if b = a then v else m.read b := by
  unfold Memory.put
  split
  · rename_i hv; by_cases e : b = a <;> simp [e, h, hv]
  · by_cases e : b = a
    · simp [Memory.read, e]
    · simp [Memory.read, e, Ne.symm e]

/-- In a sorted memory every address below the first cell is unlisted. -/
theorem Memory.read_of_lt {m : Memory} {a : Nat} (h : ∀ c ∈ m, a < c.1) : m.read a = Memory.unlisted := by
  induction m with
  | nil => rfl
  | cons c m ih =>
    have hc := h c (by simp)
    simp only [Memory.read]
    rw [if_neg (by omega)]
    exact ih fun d hd => h d (by simp [hd])

theorem Memory.read_put_of_ne {a b : Nat} (v : Byte) (m : Memory) (h : b ≠ a) : (Memory.put a v m).read b = m.read b := by
  unfold Memory.put
  split
  · rfl
  · simp [Memory.read, Ne.symm h]

/-- A write leaves every other address alone, in any memory. -/
theorem Memory.read_write_of_ne (m : Memory) {a b : Nat} (v : Byte) (h : b ≠ a) : (m.write a v).read b = m.read b := by
  induction m with
  | nil => exact Memory.read_put_of_ne v [] h
  | cons c m ih =>
    simp only [Memory.write]
    split
    · exact Memory.read_put_of_ne v _ h
    · split
      · rename_i e; subst e
        rw [Memory.read_put_of_ne v _ h]; simp [Memory.read, Ne.symm h]
      · simp only [Memory.read, ih]

/-- Memory.wf of the cells after the first, and that they lie above it. -/
theorem Memory.wf_cons {c : Host.Cell} {m : Memory} (h : Memory.wf (c :: m)) :
    m.wf ∧ (∀ d ∈ m, c.1 < d.1) ∧ c.2 ≠ Memory.unlisted := by
  obtain ⟨h1, h2⟩ := h
  rw [List.pairwise_cons] at h1
  exact ⟨⟨h1.2, fun d hd => h2 d (by simp [hd])⟩, h1.1, h2 c (by simp)⟩

/-- A read after a write to the same address gives the value written. -/
theorem Memory.read_write_self {m : Memory} (h : m.wf) (a : Nat) (v : Byte) : (m.write a v).read a = v := by
  induction m with
  | nil => rw [Memory.write, Memory.read_put a a v [] rfl]; simp
  | cons c m ih =>
    obtain ⟨hm, hc, -⟩ := Memory.wf_cons h
    simp only [Memory.write]
    split
    · rename_i hlt
      rw [Memory.read_put a a v _ (Memory.read_of_lt fun d hd => ?_)]; · simp
      rcases List.mem_cons.1 hd with rfl | hd
      · exact hlt
      · exact Nat.lt_trans hlt (hc d hd)
    · split
      · rename_i e; subst e
        rw [Memory.read_put _ _ v _ (Memory.read_of_lt hc)]; simp
      · rename_i h1 h2
        simp only [Memory.read, Ne.symm h2, if_false, ih hm]

theorem Memory.read_write {m : Memory} (h : m.wf) (a b : Nat) (v : Byte) :
    (m.write a v).read b = if b = a then v else m.read b := by
  by_cases e : b = a
  · subst e; simp [Memory.read_write_self h]
  · simp [e, Memory.read_write_of_ne m v e]

/-! ### The canonical form -/

theorem Memory.mem_put {a : Nat} {v : Byte} {m : Memory} {c : Host.Cell} (h : c ∈ Memory.put a v m) :
    (c = (a, v) ∧ v ≠ Memory.unlisted) ∨ c ∈ m := by
  unfold Memory.put at h
  split at h
  · exact .inr h
  · rename_i hv
    rcases List.mem_cons.1 h with rfl | h
    · exact .inl ⟨rfl, hv⟩
    · exact .inr h

/-- A cell of a memory after a write is the one written or one that was there. -/
theorem Memory.mem_write {a : Nat} {v : Byte} {m : Memory} {c : Host.Cell} (h : c ∈ m.write a v) :
    (c = (a, v) ∧ v ≠ Memory.unlisted) ∨ c ∈ m := by
  induction m with
  | nil => exact Memory.mem_put h
  | cons d m ih =>
    simp only [Memory.write] at h
    split at h
    · exact Memory.mem_put h
    · split at h
      · exact (Memory.mem_put h).imp_right fun h => by simp [h]
      · rcases List.mem_cons.1 h with rfl | h
        · simp
        · exact (ih h).imp_right fun h => by simp [h]

theorem Memory.wf_put {a : Nat} {v : Byte} {m : Memory} (hm : m.wf) (h : ∀ c ∈ m, a < c.1) : (Memory.put a v m).wf := by
  unfold Memory.put
  split
  · exact hm
  · rename_i hv
    refine ⟨List.pairwise_cons.2 ⟨h, hm.1⟩, fun c hc => ?_⟩
    rcases List.mem_cons.1 hc with rfl | hc
    · exact hv
    · exact hm.2 c hc

/-- A write keeps the canonical form. -/
theorem Memory.wf_write {m : Memory} (h : m.wf) (a : Nat) (v : Byte) : (m.write a v).wf := by
  induction m with
  | nil => exact Memory.wf_put h (by simp)
  | cons c m ih =>
    obtain ⟨hm, hc, hv⟩ := Memory.wf_cons h
    simp only [Memory.write]
    split
    · rename_i hlt
      refine Memory.wf_put h fun d hd => ?_
      rcases List.mem_cons.1 hd with rfl | hd
      · exact hlt
      · exact Nat.lt_trans hlt (hc d hd)
    · split
      · rename_i e; subst e; exact Memory.wf_put hm hc
      · refine ⟨List.pairwise_cons.2 ⟨fun d hd => ?_, (ih hm).1⟩, fun d hd => ?_⟩
        · rcases Memory.mem_write hd with ⟨rfl, -⟩ | hd
          · simp only; omega
          · exact hc d hd
        · rcases List.mem_cons.1 hd with rfl | hd
          · exact hv
          · exact (ih hm).2 d hd

/-- A write below MEM_SIZE keeps every cell below it. -/
theorem Memory.within_write {m : Memory} {n : Nat} (h : m.within n) {a : Nat} (v : Byte) (ha : a < n) :
    (m.write a v).within n := by
  intro c hc
  rcases Memory.mem_write hc with ⟨rfl, -⟩ | hc
  · exact ha
  · exact h c hc

theorem Memory.wf_writeHalf {m : Memory} (h : m.wf) (a : Nat) (v : Half) : (m.writeHalf a v).wf :=
  Memory.wf_write (Memory.wf_write h _ _) _ _

theorem Memory.wf_writeWord {m : Memory} (h : m.wf) (a : Nat) (v : Word) : (m.writeWord a v).wf :=
  Memory.wf_write (Memory.wf_write (Memory.wf_write (Memory.wf_write h _ _) _ _) _ _) _ _

theorem Memory.within_writeHalf {m : Memory} {n : Nat} (h : m.within n) {a : Nat} (v : Half) (ha : a + 1 < n) :
    (m.writeHalf a v).within n :=
  Memory.within_write (Memory.within_write h _ (by omega)) _ ha

theorem Memory.within_writeWord {m : Memory} {n : Nat} (h : m.within n) {a : Nat} (v : Word) (ha : a + 3 < n) :
    (m.writeWord a v).within n :=
  Memory.within_write (Memory.within_write (Memory.within_write (Memory.within_write h _ (by omega)) _ (by omega)) _
    (by omega)) _ ha

/-! ### Halfwords and words (20_memory.md R82, R83, R87) -/

/-- A halfword written: its bytes, most significant first, and no other address. -/
theorem Memory.read_writeHalf {m : Memory} (h : m.wf) (a b : Nat) (v : Half) :
    (m.writeHalf a v).read b =
      if b = a + 1 then v.extractLsb' 0 8 else if b = a then v.extractLsb' 8 8 else m.read b := by
  unfold Memory.writeHalf
  rw [Memory.read_write (Memory.wf_write h _ _), Memory.read_write h]

/-- A word written: its bytes, most significant first, and no other address. -/
theorem Memory.read_writeWord {m : Memory} (h : m.wf) (a b : Nat) (v : Word) :
    (m.writeWord a v).read b =
      if b = a + 3 then v.extractLsb' 0 8 else if b = a + 2 then v.extractLsb' 8 8
      else if b = a + 1 then v.extractLsb' 16 8 else if b = a then v.extractLsb' 24 8 else m.read b := by
  have h1 := Memory.wf_write h a (v.extractLsb' 24 8)
  have h2 := Memory.wf_write h1 (a + 1) (v.extractLsb' 16 8)
  have h3 := Memory.wf_write h2 (a + 2) (v.extractLsb' 8 8)
  unfold Memory.writeWord
  rw [Memory.read_write h3, Memory.read_write h2, Memory.read_write h1, Memory.read_write h]

theorem Memory.read_writeHalf_outside (m : Memory) {a b : Nat} (v : Half) (h : ¬(a ≤ b ∧ b < a + 2)) :
    (m.writeHalf a v).read b = m.read b := by
  unfold Memory.writeHalf
  rw [Memory.read_write_of_ne _ _ (by omega), Memory.read_write_of_ne _ _ (by omega)]

theorem Memory.read_writeWord_outside (m : Memory) {a b : Nat} (v : Word) (h : ¬(a ≤ b ∧ b < a + 4)) :
    (m.writeWord a v).read b = m.read b := by
  unfold Memory.writeWord
  rw [Memory.read_write_of_ne _ _ (by omega), Memory.read_write_of_ne _ _ (by omega),
    Memory.read_write_of_ne _ _ (by omega), Memory.read_write_of_ne _ _ (by omega)]

/-- "`MemWrite(a, 2, v)`, then `MemRead(a, 2)` returns v" (20_memory.md R87). -/
theorem Memory.readHalf_writeHalf {m : Memory} (h : m.wf) (a : Nat) (v : Half) : (m.writeHalf a v).readHalf a = v := by
  unfold Memory.readHalf
  rw [Memory.read_writeHalf h, Memory.read_writeHalf h]
  simpa using half_bytes v

/-- "store_word(addr, v); load_word(addr) returns v" (20_memory.md R87). -/
theorem Memory.readWord_writeWord {m : Memory} (h : m.wf) (a : Nat) (v : Word) : (m.writeWord a v).readWord a = v := by
  unfold Memory.readWord
  rw [Memory.read_writeWord h, Memory.read_writeWord h, Memory.read_writeWord h, Memory.read_writeWord h]
  simpa using word_bytes v

/-- An image written keeps the canonical form. -/
theorem Memory.wf_writeImage {m : Memory} (h : m.wf) (a : Nat) (bs : List Byte) : (m.writeImage a bs).wf := by
  induction bs generalizing m a with
  | nil => exact h
  | cons b bs ih => exact ih (Memory.wf_write h a b) (a + 1)

theorem Memory.within_writeImage {m : Memory} {n : Nat} (h : m.within n) {a : Nat} {bs : List Byte}
    (ha : a + bs.length ≤ n) : (m.writeImage a bs).within n := by
  induction bs generalizing m a with
  | nil => exact h
  | cons b bs ih =>
    simp only [List.length_cons] at ha
    exact ih (Memory.within_write h b (by omega)) (by omega)

/-- The reset memory of a legal machine has the canonical form (70_reset_and_hazards.md R434). -/
theorem Memory.wf_newCpu {c : Config} (h : c.wf) : (State.newCpu c).mem.wf := h.2.2.2.2.1

theorem Memory.wf_reset : State.reset.mem.wf := by decide

end Sys2Proof.Machine
end

