-- ==== Sys2Proof/Laws/Exec.lean ====
section
/-! SUPPORT. What the shared operations do, in the words of the claims; how `exec` can end (`exec_ends`), and what a step can
do (`front_cases`, `step_cases`). The claims cite these and unfold nothing. -/

namespace Sys2Proof.Machine

variable {s t : State}

/-! ### Outcomes -/

/-- Outcome `next` moves PC and clears in_delay (40_fetch_execute.md R157). -/
theorem retires_retire (s u : State) (h1 : u.pc = s.pc) (h2 : u.inDelay = s.inDelay) (h3 : u.branchTarget = s.branchTarget) :
    Retires s u.retire := by
  simp [Retires, h1, h2, h3]

theorem onlyPc_retire (s : State) : OnlyPc s s.retire :=
  ⟨fun _ => rfl, ⟨rfl, rfl⟩, fun _ => rfl, ⟨rfl, rfl⟩, rfl, rfl⟩

theorem retires_self (s : State) : Retires s s.retire := retires_retire s s rfl rfl rfl

/-- The frame of an instruction that writes one register. -/
theorem writesGpr_writeGpr (s u : State) {n : Nat} (v : Word) (h : n < 32) (hu : ∀ k, u.readGpr k = (s.writeGpr n v).readGpr k) :
    WritesGpr n v s u := by
  refine ⟨?_, fun k hk => ?_⟩
  · rw [hu, State.readGpr_writeGpr_self s v h]
  · rw [hu, State.readGpr_writeGpr_of_ne s v hk]

/-- `finish` is outcome `next` with one register written, and nothing else. -/
theorem finish_spec (s : State) {n : Nat} (v : Word) (h : n < 32) :
    ∃ t, s.finish n v = .next t ∧ WritesGpr n v s t ∧ OnlyGprs s t ∧ Retires s t :=
  ⟨_, rfl, writesGpr_writeGpr _ _ _ h fun _ => rfl, ⟨⟨rfl, rfl⟩, fun _ => rfl, ⟨rfl, rfl⟩, rfl, rfl⟩,
    retires_retire _ _ rfl rfl rfl⟩

/-- HI and LO written, and nothing else. -/
theorem setHiLo_spec (s : State) (h l : Word) :
    OnlyHiLo s (s.setHiLo h l).retire ∧ Retires s (s.setHiLo h l).retire :=
  ⟨⟨fun _ => rfl, fun _ => rfl, ⟨rfl, rfl⟩, rfl, rfl⟩, retires_retire _ _ rfl rfl rfl⟩

/-- `delayTo` outside a delay slot (40_fetch_execute.md R160). -/
theorem delayTo_spec (s : State) (T : Word) (h : s.inDelay = false) :
    ∃ t, s.delayTo T = .next t ∧ OnlyPc s t ∧ DelaysTo T s t := by
  refine ⟨{ s with branchTarget := T, pc := s.pc + 4, inDelay := true }, by simp [State.delayTo, h], ?_, rfl, rfl, rfl⟩
  exact ⟨fun _ => rfl, ⟨rfl, rfl⟩, fun _ => rfl, ⟨rfl, rfl⟩, rfl, rfl⟩

/-- `delayTo` with the link written first. -/
theorem link_delayTo_spec (s : State) {n : Nat} (v T : Word) (hn : n < 32) (h : s.inDelay = false) :
    ∃ t, (s.writeGpr n v).delayTo T = .next t ∧ WritesGpr n v s t ∧ OnlyGprs s t ∧ DelaysTo T s t := by
  refine ⟨{ s.writeGpr n v with branchTarget := T, pc := s.pc + 4, inDelay := true }, by simp [State.delayTo, h], ?_, ?_,
    rfl, rfl, rfl⟩
  · exact writesGpr_writeGpr _ _ _ hn fun _ => rfl
  · exact ⟨⟨rfl, rfl⟩, fun _ => rfl, ⟨rfl, rfl⟩, rfl, rfl⟩

/-- In a delay slot it is refused (40_fetch_execute.md R163). -/
theorem delayTo_inDelay (s : State) (T : Word) (h : s.inDelay = true) :
    s.delayTo T = .refused .controlTransferInDelaySlot := by
  simp [State.delayTo, h]

theorem goTo_inDelay (s : State) (T : Word) (h : s.inDelay = true) :
    s.goTo T = .refused .controlTransferInDelaySlot := by
  simp [State.goTo, h]

/-- If `delayTo` answers a next state, it is the one of R160. -/
theorem delayTo_cases {T : Word} (h : s.delayTo T = .next t) :
    s.inDelay = false ∧ t = { s with branchTarget := T, pc := s.pc + 4, inDelay := true } := by
  unfold State.delayTo at h
  split at h
  · exact absurd h (by simp)
  · rename_i hd; exact ⟨by simpa using hd, (Host.Outcome.next.inj h).symm⟩

theorem goTo_cases {T : Word} (h : s.goTo T = .next t) :
    s.inDelay = false ∧ t = { s with pc := T, inDelay := false } := by
  unfold State.goTo at h
  split at h
  · exact absurd h (by simp)
  · rename_i hd; exact ⟨by simpa using hd, (Host.Outcome.next.inj h).symm⟩

/-! ### Memory accesses (20_memory.md R86, R87) -/

theorem load8_admits {a : Word} (h : s.admits a 1) : s.load8 a = some (s.readByte a.toNat) := if_pos h
theorem load16_admits {a : Word} (h : s.admits a 2) :
    s.load16 a = some (s.readByte a.toNat ++ s.readByte (a.toNat + 1)) := if_pos h
theorem load32_admits {a : Word} (h : s.admits a 4) :
    s.load32 a = some (s.readByte a.toNat ++ s.readByte (a.toNat + 1) ++ s.readByte (a.toNat + 2) ++
      s.readByte (a.toNat + 3)) := if_pos h
theorem load8_not_admits {a : Word} (h : ¬s.admits a 1) : s.load8 a = none := if_neg h
theorem load16_not_admits {a : Word} (h : ¬s.admits a 2) : s.load16 a = none := if_neg h
theorem load32_not_admits {a : Word} (h : ¬s.admits a 4) : s.load32 a = none := if_neg h
theorem store8_admits {a : Word} (v : Byte) (h : s.admits a 1) :
    s.store8 a v = some (s.setMem (s.mem.write a.toNat v)) := if_pos h
theorem store16_admits {a : Word} (v : Half) (h : s.admits a 2) :
    s.store16 a v = some (s.setMem (s.mem.writeHalf a.toNat v)) := if_pos h
theorem store32_admits {a : Word} (v : Word) (h : s.admits a 4) :
    s.store32 a v = some (s.setMem (s.mem.writeWord a.toNat v)) := if_pos h
theorem store8_not_admits {a : Word} (v : Byte) (h : ¬s.admits a 1) : s.store8 a v = none := if_neg h
theorem store16_not_admits {a : Word} (v : Half) (h : ¬s.admits a 2) : s.store16 a v = none := if_neg h
theorem store32_not_admits {a : Word} (v : Word) (h : ¬s.admits a 4) : s.store32 a v = none := if_neg h

/-- A store that is performed leaves a memory in canonical form, below MEM_SIZE. -/
structure StoredMem (s : State) (m : Memory) : Prop where
  wf : s.mem.wf → m.wf
  within : s.mem.within s.cfg.memSize → m.within s.cfg.memSize

theorem store8_cases {a : Word} {v : Byte} (h : s.store8 a v = some t) : ∃ m, t = s.setMem m ∧ StoredMem s m := by
  by_cases ha : s.admits a 1
  · rw [store8_admits v ha] at h
    exact ⟨_, (Option.some.inj h).symm, fun w => Memory.wf_write w _ _, fun w => Memory.within_write w _ (by have := ha.2; omega)⟩
  · rw [store8_not_admits v ha] at h; exact absurd h (by simp)

theorem store16_cases {a : Word} {v : Half} (h : s.store16 a v = some t) : ∃ m, t = s.setMem m ∧ StoredMem s m := by
  by_cases ha : s.admits a 2
  · rw [store16_admits v ha] at h
    exact ⟨_, (Option.some.inj h).symm, fun w => Memory.wf_writeHalf w _ _,
      fun w => Memory.within_writeHalf w _ (by have := ha.2; omega)⟩
  · rw [store16_not_admits v ha] at h; exact absurd h (by simp)

theorem store32_cases {a : Word} {v : Word} (h : s.store32 a v = some t) : ∃ m, t = s.setMem m ∧ StoredMem s m := by
  by_cases ha : s.admits a 4
  · rw [store32_admits v ha] at h
    exact ⟨_, (Option.some.inj h).symm, fun w => Memory.wf_writeWord w _ _,
      fun w => Memory.within_writeWord w _ (by have := ha.2; omega)⟩
  · rw [store32_not_admits v ha] at h; exact absurd h (by simp)

/-! ### How `exec` can end -/

/-- The ways an instruction `i` executed in `s` can end: every one of the four outcomes of 00_scope.md R12, with what it
writes on the way. -/
inductive Ends (i : Instr) (s : State) : Result → Prop where
  | finish (n : Nat) (v : Word) : Ends i s (s.finish n v)
  | retire : Ends i s (.next s.retire)
  | hiLo (h l : Word) : Ends i s (.next (s.setHiLo h l).retire)
  | raise (e : ExcCode) (he : e ∈ [ExcCode.sys, .bp, .ov, .tr]) : Ends i s (.next (s.raise e))
  | addressError (e : ExcCode) (a : Word) (he : e ∈ [ExcCode.adel, .ades]) : Ends i s (.next (s.addressError e a))
  | store (m : Memory) (hm : StoredMem s m) (hi : isStore i = true) : Ends i s (.next (s.setMem m).retire)
  | storeWrite (m : Memory) (hm : StoredMem s m) (hi : isStore i = true) (n : Nat) (v : Word) :
      Ends i s (.next ((s.setMem m).writeGpr n v).retire)
  | delay (T : Word) (hi : isJumpOrBranch i = true) : Ends i s (s.delayTo T)
  | linkDelay (n : Nat) (T : Word) (hi : isJumpOrBranch i = true) : Ends i s ((s.writeGpr n (linkOf s.pc)).delayTo T)
  | linkRetire (n : Nat) (hi : isJumpOrBranch i = true) : Ends i s (.next (s.writeGpr n (linkOf s.pc)).retire)
  | mtc0 (rt reg sel : Nat) (hi : i = .mtc0 rt reg sel) :
      Ends i s (.next (s.setCp0 (s.cp0.write s.cfg.tlbSize reg sel (s.readGpr rt))).retire)
  | eret (hi : i = .eret) : Ends i s ((s.setCp0 s.cp0.eret).goTo s.cp0.eretTarget)
  | tlbp (hi : i = .tlbp) : Ends i s (.next (s.setCp0 { s.cp0 with index := probeResult s.tlb s.cp0 }).retire)
  | tlbr (hi : i = .tlbr) :
      Ends i s (.next (s.setCp0 (s.cp0.fromEntry (s.tlb.getD s.cp0.indexField TlbEntry.zero))).retire)
  | tlbwi (hi : i = .tlbwi) : Ends i s (.next (s.setTlb (s.tlb.set s.cp0.indexField s.cp0.toEntry)).retire)
  | tlbwr (hi : i = .tlbwr) :
      Ends i s (.next ((s.setTlb (s.tlb.set (s.cp0.randomEntry s.cfg.tlbSize) s.cp0.toEntry)).setCp0
        (s.cp0.randomStep s.cfg.tlbSize)).retire)

theorem ends_finishLoad (i : Instr) (s : State) (rt : Nat) (a : Word) (o : Option Word) : Ends i s (s.finishLoad rt a o) := by
  cases o with
  | none => exact .addressError .adel a (by simp)
  | some v => exact .finish rt v

theorem ends_finishStore (i : Instr) (s : State) (a : Word) (o : Option State) (hi : isStore i = true)
    (h : ∀ t, o = some t → ∃ m, t = s.setMem m ∧ StoredMem s m) : Ends i s (s.finishStore a o) := by
  cases o with
  | none => exact .addressError .ades a (by simp)
  | some t =>
    obtain ⟨m, rfl, hm⟩ := h t rfl
    exact .store m hm hi

theorem ends_trapIf (i : Instr) (s : State) (b : Bool) : Ends i s (s.trapIf b) := by
  cases b
  · exact .retire
  · exact .raise .tr (by simp)

theorem ends_branchIf (i : Instr) (s : State) (b : Bool) (off : BitVec 16) (hi : isJumpOrBranch i = true) :
    Ends i s (s.branchIf b off) := by
  cases b
  · exact .retire
  · exact .delay _ hi

theorem ends_linkBranchIf (i : Instr) (s : State) (b : Bool) (off : BitVec 16) (hi : isJumpOrBranch i = true) :
    Ends i s ((s.writeGpr 31 (linkOf s.pc)).branchIf b off) := by
  cases b
  · exact .linkRetire _ hi
  · exact .linkDelay _ _ hi

/-- Every instruction ends in one of the ways of `Ends`. -/
theorem exec_ends (i : Instr) (s : State) : Ends i s (exec i s) := by
  cases i
  case add rd rs rt =>
    simp only [exec, execAdd]; split
    · exact .raise .ov (by simp)
    · exact .finish _ _
  case sub rd rs rt =>
    simp only [exec, execSub]; split
    · exact .raise .ov (by simp)
    · exact .finish _ _
  case addi rt rs imm =>
    simp only [exec, execAddi]; split
    · exact .raise .ov (by simp)
    · exact .finish _ _
  case movn rd rs rt =>
    simp only [exec, execMovn]; split
    · exact .finish _ _
    · exact .retire
  case movz rd rs rt =>
    simp only [exec, execMovz]; split
    · exact .finish _ _
    · exact .retire
  case div rs rt =>
    simp only [exec, execDiv]; split <;> exact .hiLo _ _
  case divu rs rt =>
    simp only [exec, execDivu]; split <;> exact .hiLo _ _
  case mult | multu | mthi | mtlo => exact .hiLo _ _
  case teq | tne | tge | tgeu | tlt | tltu => exact ends_trapIf _ _ _
  case syscall => exact .raise .sys (by simp)
  case brk => exact .raise .bp (by simp)
  case sync => exact .retire
  case lw | lh | lhu | lb | lbu | ll => exact ends_finishLoad _ _ _ _ _
  case sw => exact ends_finishStore _ _ _ _ rfl fun _ h => store32_cases h
  case sh => exact ends_finishStore _ _ _ _ rfl fun _ h => store16_cases h
  case sb => exact ends_finishStore _ _ _ _ rfl fun _ h => store8_cases h
  case sc rt base offset =>
    simp only [exec, execSc]
    cases h : s.store32 (s.effAddr base offset) (s.readGpr rt) with
    | none => exact .addressError .ades _ (by simp)
    | some t =>
      obtain ⟨m, rfl, hm⟩ := store32_cases h
      exact .storeWrite m hm rfl _ _
  case lwl =>
    simp only [exec, execLwl]; split
    · exact .retire
    · exact ends_finishLoad _ _ _ _ _
  case lwr =>
    simp only [exec, execLwr]; split
    · exact .retire
    · exact ends_finishLoad _ _ _ _ _
  case swl =>
    simp only [exec, execSwl]; split
    · exact .retire
    · exact ends_finishStore _ _ _ _ rfl fun _ h => store32_cases h
  case swr =>
    simp only [exec, execSwr]; split
    · exact .retire
    · exact ends_finishStore _ _ _ _ rfl fun _ h => store32_cases h
  case beq | bne | blez | bgtz | bltz | bgez => exact ends_branchIf _ _ _ _ rfl
  case bltzal | bgezal => exact ends_linkBranchIf _ _ _ _ rfl
  case j | jr => exact .delay _ rfl
  case jal | jalr => exact .linkDelay _ _ rfl
  case mtc0 => exact .mtc0 _ _ _ rfl
  case eret => exact .eret rfl
  case tlbp => exact .tlbp rfl
  case tlbr =>
    simp only [exec, execTlbr]; split
    · exact .retire
    · exact .tlbr rfl
  case tlbwi =>
    simp only [exec, execTlbwi]; split
    · exact .retire
    · exact .tlbwi rfl
  case tlbwr => exact .tlbwr rfl
  all_goals exact .finish _ _

/-! ### What a step can do -/

/-- Stages 1 to 3: stopped, a failed fetch, an interrupt, or a word to execute after the tick. -/
theorem front_cases (s : State) :
    (s.running = false ∧ s.front = .stopped) ∨
    (s.running = true ∧ s.load32 s.pc = none ∧ s.front = .raised (s.addressError .adel s.pc)) ∨
    (∃ w, s.running = true ∧ s.load32 s.pc = some w ∧ s.tick.cp0.pendingInterrupt = true ∧
      s.front = .raised (s.tick.raise .int)) ∨
    ∃ w, s.running = true ∧ s.load32 s.pc = some w ∧ s.tick.cp0.pendingInterrupt = false ∧ s.front = .ready w s.tick := by
  unfold State.front
  cases hr : s.running
  · simp
  · cases hl : s.load32 s.pc with
    | none => simp
    | some w => cases hp : s.tick.cp0.pendingInterrupt <;> simp

/-- What a step answers: the state of a stopped core, a taken exception of stages 1 to 3, RI, or what `exec` answers after
the tick. -/
theorem step_cases (s : State) :
    (s.running = false ∧ step s = .next s) ∨
    (s.running = true ∧ s.load32 s.pc = none ∧ step s = .next (s.addressError .adel s.pc)) ∨
    (∃ w, s.running = true ∧ s.load32 s.pc = some w ∧ s.tick.cp0.pendingInterrupt = true ∧
      step s = .next (s.tick.raise .int)) ∨
    (∃ w e, s.running = true ∧ s.front = .ready w s.tick ∧ decodeWord w = .error e ∧ step s = .next (s.tick.raise .ri)) ∨
    ∃ w i, s.running = true ∧ s.front = .ready w s.tick ∧ decodeWord w = .ok i ∧ step s = exec i s.tick := by
  rcases front_cases s with ⟨hr, h⟩ | ⟨hr, hl, h⟩ | ⟨w, hr, hl, hp, h⟩ | ⟨w, hr, hl, hp, h⟩
  · exact .inl ⟨hr, by simp [step, h]⟩
  · exact .inr (.inl ⟨hr, hl, by simp [step, h]⟩)
  · exact .inr (.inr (.inl ⟨w, hr, hl, hp, by simp [step, h]⟩))
  · cases hd : decodeWord w with
    | error e => exact .inr (.inr (.inr (.inl ⟨w, e, hr, h, hd, by simp [step, h, hd]⟩)))
    | ok i => exact .inr (.inr (.inr (.inr ⟨w, i, hr, h, hd, by simp [step, h, hd]⟩)))

end Sys2Proof.Machine
end

