-- ==== Sys2Proof/Laws/PerInstr.lean ====
section
/-! SUPPORT. Per instruction: the family `FixedBits`, the encoded word has the bits its row of the opcode table fixes. -/

namespace Sys2Proof.Laws.FixedBits

/-- The word of `i` matches its row of spec/opcode_table.json (30_encoding.md R117). -/
def Statement (i : Instr) : Prop := encode i &&& i.row.mask = i.row.value

theorem add (rd : Nat) (rs : Nat) (rt : Nat) : Statement (.add rd rs rt) := encodeR_fixed rs rt rd 0 0x20
theorem addu (rd : Nat) (rs : Nat) (rt : Nat) : Statement (.addu rd rs rt) := encodeR_fixed rs rt rd 0 0x21
theorem sub (rd : Nat) (rs : Nat) (rt : Nat) : Statement (.sub rd rs rt) := encodeR_fixed rs rt rd 0 0x22
theorem subu (rd : Nat) (rs : Nat) (rt : Nat) : Statement (.subu rd rs rt) := encodeR_fixed rs rt rd 0 0x23
theorem and (rd : Nat) (rs : Nat) (rt : Nat) : Statement (.and rd rs rt) := encodeR_fixed rs rt rd 0 0x24
theorem or (rd : Nat) (rs : Nat) (rt : Nat) : Statement (.or rd rs rt) := encodeR_fixed rs rt rd 0 0x25
theorem xor (rd : Nat) (rs : Nat) (rt : Nat) : Statement (.xor rd rs rt) := encodeR_fixed rs rt rd 0 0x26
theorem nor (rd : Nat) (rs : Nat) (rt : Nat) : Statement (.nor rd rs rt) := encodeR_fixed rs rt rd 0 0x27
theorem sll (rd : Nat) (rt : Nat) (shamt : Nat) : Statement (.sll rd rt shamt) := encodeR_fixed 0 rt rd shamt 0x00
theorem srl (rd : Nat) (rt : Nat) (shamt : Nat) : Statement (.srl rd rt shamt) := encodeR_fixed 0 rt rd shamt 0x02
theorem sra (rd : Nat) (rt : Nat) (shamt : Nat) : Statement (.sra rd rt shamt) := encodeR_fixed 0 rt rd shamt 0x03
theorem sllv (rd : Nat) (rt : Nat) (rs : Nat) : Statement (.sllv rd rt rs) := encodeR_fixed rs rt rd 0 0x04
theorem srlv (rd : Nat) (rt : Nat) (rs : Nat) : Statement (.srlv rd rt rs) := encodeR_fixed rs rt rd 0 0x06
theorem srav (rd : Nat) (rt : Nat) (rs : Nat) : Statement (.srav rd rt rs) := encodeR_fixed rs rt rd 0 0x07
theorem slt (rd : Nat) (rs : Nat) (rt : Nat) : Statement (.slt rd rs rt) := encodeR_fixed rs rt rd 0 0x2A
theorem sltu (rd : Nat) (rs : Nat) (rt : Nat) : Statement (.sltu rd rs rt) := encodeR_fixed rs rt rd 0 0x2B
theorem movn (rd : Nat) (rs : Nat) (rt : Nat) : Statement (.movn rd rs rt) := encodeR_fixed rs rt rd 0 0x0B
theorem movz (rd : Nat) (rs : Nat) (rt : Nat) : Statement (.movz rd rs rt) := encodeR_fixed rs rt rd 0 0x0A
theorem mult (rs : Nat) (rt : Nat) : Statement (.mult rs rt) := encodeR_fixed rs rt 0 0 0x18
theorem multu (rs : Nat) (rt : Nat) : Statement (.multu rs rt) := encodeR_fixed rs rt 0 0 0x19
theorem div (rs : Nat) (rt : Nat) : Statement (.div rs rt) := encodeR_fixed rs rt 0 0 0x1A
theorem divu (rs : Nat) (rt : Nat) : Statement (.divu rs rt) := encodeR_fixed rs rt 0 0 0x1B
theorem mfhi (rd : Nat) : Statement (.mfhi rd) := encodeR_fixed 0 0 rd 0 0x10
theorem mflo (rd : Nat) : Statement (.mflo rd) := encodeR_fixed 0 0 rd 0 0x12
theorem mthi (rs : Nat) : Statement (.mthi rs) := encodeR_fixed rs 0 0 0 0x11
theorem mtlo (rs : Nat) : Statement (.mtlo rs) := encodeR_fixed rs 0 0 0 0x13
theorem teq (rs : Nat) (rt : Nat) (code : BitVec 10) : Statement (.teq rs rt code) := encodeTrap_fixed rs rt code 0x34
theorem tne (rs : Nat) (rt : Nat) (code : BitVec 10) : Statement (.tne rs rt code) := encodeTrap_fixed rs rt code 0x36
theorem tge (rs : Nat) (rt : Nat) (code : BitVec 10) : Statement (.tge rs rt code) := encodeTrap_fixed rs rt code 0x30
theorem tgeu (rs : Nat) (rt : Nat) (code : BitVec 10) : Statement (.tgeu rs rt code) := encodeTrap_fixed rs rt code 0x31
theorem tlt (rs : Nat) (rt : Nat) (code : BitVec 10) : Statement (.tlt rs rt code) := encodeTrap_fixed rs rt code 0x32
theorem tltu (rs : Nat) (rt : Nat) (code : BitVec 10) : Statement (.tltu rs rt code) := encodeTrap_fixed rs rt code 0x33
theorem syscall (code : BitVec 20) : Statement (.syscall code) := encodeSys_fixed code 0x0C
theorem brk (code : BitVec 20) : Statement (.brk code) := encodeSys_fixed code 0x0D
theorem sync : Statement (.sync) := encodeR_fixed 0 0 0 0 0x0F
theorem addi (rt : Nat) (rs : Nat) (imm : BitVec 16) : Statement (.addi rt rs imm) := encodeI_fixed 0x08 rs rt imm
theorem addiu (rt : Nat) (rs : Nat) (imm : BitVec 16) : Statement (.addiu rt rs imm) := encodeI_fixed 0x09 rs rt imm
theorem andi (rt : Nat) (rs : Nat) (imm : BitVec 16) : Statement (.andi rt rs imm) := encodeI_fixed 0x0C rs rt imm
theorem ori (rt : Nat) (rs : Nat) (imm : BitVec 16) : Statement (.ori rt rs imm) := encodeI_fixed 0x0D rs rt imm
theorem xori (rt : Nat) (rs : Nat) (imm : BitVec 16) : Statement (.xori rt rs imm) := encodeI_fixed 0x0E rs rt imm
theorem slti (rt : Nat) (rs : Nat) (imm : BitVec 16) : Statement (.slti rt rs imm) := encodeI_fixed 0x0A rs rt imm
theorem sltiu (rt : Nat) (rs : Nat) (imm : BitVec 16) : Statement (.sltiu rt rs imm) := encodeI_fixed 0x0B rs rt imm
theorem lui (rt : Nat) (imm : BitVec 16) : Statement (.lui rt imm) := encodeI_fixed 0x0F 0 rt imm
theorem lw (rt : Nat) (base : Nat) (offset : BitVec 16) : Statement (.lw rt base offset) := encodeI_fixed 0x23 base rt offset
theorem lh (rt : Nat) (base : Nat) (offset : BitVec 16) : Statement (.lh rt base offset) := encodeI_fixed 0x21 base rt offset
theorem lhu (rt : Nat) (base : Nat) (offset : BitVec 16) : Statement (.lhu rt base offset) := encodeI_fixed 0x25 base rt offset
theorem lb (rt : Nat) (base : Nat) (offset : BitVec 16) : Statement (.lb rt base offset) := encodeI_fixed 0x20 base rt offset
theorem lbu (rt : Nat) (base : Nat) (offset : BitVec 16) : Statement (.lbu rt base offset) := encodeI_fixed 0x24 base rt offset
theorem sw (rt : Nat) (base : Nat) (offset : BitVec 16) : Statement (.sw rt base offset) := encodeI_fixed 0x2B base rt offset
theorem sh (rt : Nat) (base : Nat) (offset : BitVec 16) : Statement (.sh rt base offset) := encodeI_fixed 0x29 base rt offset
theorem sb (rt : Nat) (base : Nat) (offset : BitVec 16) : Statement (.sb rt base offset) := encodeI_fixed 0x28 base rt offset
theorem lwl (rt : Nat) (base : Nat) (offset : BitVec 16) : Statement (.lwl rt base offset) := encodeI_fixed 0x22 base rt offset
theorem lwr (rt : Nat) (base : Nat) (offset : BitVec 16) : Statement (.lwr rt base offset) := encodeI_fixed 0x26 base rt offset
theorem swl (rt : Nat) (base : Nat) (offset : BitVec 16) : Statement (.swl rt base offset) := encodeI_fixed 0x2A base rt offset
theorem swr (rt : Nat) (base : Nat) (offset : BitVec 16) : Statement (.swr rt base offset) := encodeI_fixed 0x2E base rt offset
theorem ll (rt : Nat) (base : Nat) (offset : BitVec 16) : Statement (.ll rt base offset) := encodeI_fixed 0x30 base rt offset
theorem sc (rt : Nat) (base : Nat) (offset : BitVec 16) : Statement (.sc rt base offset) := encodeI_fixed 0x38 base rt offset
theorem beq (rs : Nat) (rt : Nat) (offset : BitVec 16) : Statement (.beq rs rt offset) := encodeI_fixed 0x04 rs rt offset
theorem bne (rs : Nat) (rt : Nat) (offset : BitVec 16) : Statement (.bne rs rt offset) := encodeI_fixed 0x05 rs rt offset
theorem blez (rs : Nat) (offset : BitVec 16) : Statement (.blez rs offset) := encodeI_fixed 0x06 rs 0 offset
theorem bgtz (rs : Nat) (offset : BitVec 16) : Statement (.bgtz rs offset) := encodeI_fixed 0x07 rs 0 offset
theorem bltz (rs : Nat) (offset : BitVec 16) : Statement (.bltz rs offset) := encodeI_fixed_regimm 0x01 rs 0x00 offset
theorem bgez (rs : Nat) (offset : BitVec 16) : Statement (.bgez rs offset) := encodeI_fixed_regimm 0x01 rs 0x01 offset
theorem bltzal (rs : Nat) (offset : BitVec 16) : Statement (.bltzal rs offset) := encodeI_fixed_regimm 0x01 rs 0x10 offset
theorem bgezal (rs : Nat) (offset : BitVec 16) : Statement (.bgezal rs offset) := encodeI_fixed_regimm 0x01 rs 0x11 offset
theorem j (target : BitVec 26) : Statement (.j target) := encodeJ_fixed 0x02 target
theorem jal (target : BitVec 26) : Statement (.jal target) := encodeJ_fixed 0x03 target
theorem jr (rs : Nat) : Statement (.jr rs) := encodeR_fixed rs 0 0 0 0x08
theorem jalr (rd : Nat) (rs : Nat) : Statement (.jalr rd rs) := encodeR_fixed rs 0 rd 0 0x09
theorem mfc0 (rt : Nat) (rd : Nat) (sel : Nat) : Statement (.mfc0 rt rd sel) := encodeMoveC0_fixed 0x00 rt rd sel
theorem mtc0 (rt : Nat) (rd : Nat) (sel : Nat) : Statement (.mtc0 rt rd sel) := encodeMoveC0_fixed 0x04 rt rd sel
theorem eret : Statement (.eret) := encodeCo_fixed 0x18
theorem tlbp : Statement (.tlbp) := encodeCo_fixed 0x08
theorem tlbr : Statement (.tlbr) := encodeCo_fixed 0x01
theorem tlbwi : Statement (.tlbwi) := encodeCo_fixed 0x02
theorem tlbwr : Statement (.tlbwr) := encodeCo_fixed 0x06

end Sys2Proof.Laws.FixedBits
end

