-- ==== Sys2Proof/Tests/Slice0.lean ====
section
/-! SUPPORT. The model's own tests: ill-formed terms, words of the spec decoded, one step at a time against the vectors of
spec/95_test_vectors.md (their ids stand in the comments), and a witness for the hypotheses of every obligation. -/

namespace Sys2Proof.Tests

open Sys2Proof.Machine

/-! ### Helpers -/

/-- The next state of a result, if it is one. -/
def stateOf : Result → Option State
  | .next t => some t
  | .fault _ => none
  | .refused _ => none

/-- The refusal of a result, if it is one. -/
def refusalOf : Result → Option Refusal
  | .refused r => some r
  | .fault _ => none
  | .next _ => none

def errorOf {ε α : Type} : Except ε α → Bool
  | .ok _ => false
  | .error _ => true

/-- `s` with a word in memory. -/
def place (s : State) (a : Nat) (w : Word) : State := s.setMem (s.mem.writeWord a w)

def setGprs (s : State) : List (Nat × Word) → State
  | [] => s
  | (n, v) :: rs => setGprs (s.writeGpr n v) rs

/-- The parameters of the vectors' common start state. -/
def smallConfig : Config := { Config.default with memSize := 0x1000 }

/-- The vectors' common start state, before the word and the registers are set. -/
def small : State := { State.newCpu smallConfig with pc := 0x100, running := true }

/-- The start state of a vector: its word at 0x100 and its registers. -/
def start (w : Word) (rs : List (Nat × Word)) : State := setGprs (place small 0x100 w) rs

/-- The start state of an L vector: the two data words at 0x200 too. -/
def startL (w : Word) (rs : List (Nat × Word)) : State :=
  place (place (start w rs) 0x200 0x11223344) 0x204 0x8899AABB

/-- The registers the L vectors share. -/
def regsL : List (Nat × Word) := [(4, 0x200), (5, 0xCAFEF00D), (6, 9)]

def startM (w a b : Word) : State := (start w [(4, a), (5, b)]).setHiLo 0x11111111 0x22222222

def startC (w : Word) (c : Cp0 → Cp0) (rs : List (Nat × Word)) : State := (start w rs).setCp0 (c (start w rs).cp0)

def inSlot (s : State) (target : Word) : State := { s with inDelay := true, branchTarget := target }

def full (s : State) : State := { s with cfg := { s.cfg with unalignedLs := .full } }

/-- After one step: the registers asked for, and PC. -/
def gprs (s : State) (ns : List Nat) : Option (List Word × Word) := (stateOf (step s)).map fun t => (ns.map t.readGpr, t.pc)

/-- After one step: HI, LO, PC. -/
def hiLoPc (s : State) : Option (Word × Word × Word) := (stateOf (step s)).map fun t => (t.hi, t.lo, t.pc)

/-- After one step: Status, Cause, EPC, PC, running. -/
def trap (s : State) : Option (Word × Word × Word × Word × Bool) :=
  (stateOf (step s)).map fun t => (t.cp0.status, t.cp0.cause, t.cp0.epc, t.pc, t.running)

/-- After one step: PC, in_delay, branch_target. -/
def slot (s : State) : Option (Word × Bool × Word) := (stateOf (step s)).map fun t => (t.pc, t.inDelay, t.branchTarget)

/-- After one step: the memory words asked for, GPR 5, PC. -/
def memAfter (s : State) (as : List Nat) : Option (List Word × Word × Word) :=
  (stateOf (step s)).map fun t => (as.map t.mem.readWord, t.readGpr 5, t.pc)

/-- After one step: a view of CP0, and PC. -/
def cp0After {α : Type} (s : State) (f : Cp0 → α) : Option (α × Word) := (stateOf (step s)).map fun t => (f t.cp0, t.pc)

/-- The table's words decode to these instructions. -/
def decodes (ps : List (Nat × Instr)) : Bool := ps.all fun p => decodeTableWord 32 p.1 == some p.2

/-- None of these is well formed. -/
def illFormed (is : List Instr) : Bool := is.all fun i => !i.wellFormed

/-! ### Ill-formed terms: one for each check of each constructor -/

theorem test_illFormed_alu : illFormed [
    .add 32 0 0, .add 0 32 0, .add 0 0 32, .addu 32 0 0, .addu 0 32 0, .addu 0 0 32, .sub 32 0 0, .sub 0 32 0, .sub 0 0 32,
    .subu 32 0 0, .subu 0 32 0, .subu 0 0 32, .and 32 0 0, .and 0 32 0, .and 0 0 32, .or 32 0 0, .or 0 32 0, .or 0 0 32,
    .xor 32 0 0, .xor 0 32 0, .xor 0 0 32, .nor 32 0 0, .nor 0 32 0, .nor 0 0 32] = true := by decide

theorem test_illFormed_shift : illFormed [
    .sll 32 0 0, .sll 0 32 0, .sll 0 0 32, .srl 32 0 0, .srl 0 32 0, .srl 0 0 32, .sra 32 0 0, .sra 0 32 0, .sra 0 0 32,
    .sllv 32 0 0, .sllv 0 32 0, .sllv 0 0 32, .srlv 32 0 0, .srlv 0 32 0, .srlv 0 0 32, .srav 32 0 0, .srav 0 32 0,
    .srav 0 0 32, .slt 32 0 0, .slt 0 32 0, .slt 0 0 32, .sltu 32 0 0, .sltu 0 32 0, .sltu 0 0 32, .movn 32 0 0,
    .movn 0 32 0, .movn 0 0 32, .movz 32 0 0, .movz 0 32 0, .movz 0 0 32] = true := by decide

theorem test_illFormed_muldiv_trap : illFormed [
    .mult 32 0, .mult 0 32, .multu 32 0, .multu 0 32, .div 32 0, .div 0 32, .divu 32 0, .divu 0 32, .mfhi 32, .mflo 32,
    .mthi 32, .mtlo 32, .teq 32 0 0, .teq 0 32 0, .tne 32 0 0, .tne 0 32 0, .tge 32 0 0, .tge 0 32 0, .tgeu 32 0 0,
    .tgeu 0 32 0, .tlt 32 0 0, .tlt 0 32 0, .tltu 32 0 0, .tltu 0 32 0] = true := by decide

theorem test_illFormed_immediate : illFormed [
    .addi 32 0 0, .addi 0 32 0, .addiu 32 0 0, .addiu 0 32 0, .andi 32 0 0, .andi 0 32 0, .ori 32 0 0, .ori 0 32 0,
    .xori 32 0 0, .xori 0 32 0, .slti 32 0 0, .slti 0 32 0, .sltiu 32 0 0, .sltiu 0 32 0, .lui 32 0] = true := by decide

theorem test_illFormed_loadStore : illFormed [
    .lw 32 0 0, .lw 0 32 0, .lh 32 0 0, .lh 0 32 0, .lhu 32 0 0, .lhu 0 32 0, .lb 32 0 0, .lb 0 32 0, .lbu 32 0 0, .lbu 0 32 0,
    .sw 32 0 0, .sw 0 32 0, .sh 32 0 0, .sh 0 32 0, .sb 32 0 0, .sb 0 32 0, .lwl 32 0 0, .lwl 0 32 0, .lwr 32 0 0, .lwr 0 32 0,
    .swl 32 0 0, .swl 0 32 0, .swr 32 0 0, .swr 0 32 0, .ll 32 0 0, .ll 0 32 0, .sc 32 0 0, .sc 0 32 0] = true := by decide

theorem test_illFormed_branch_cop0 : illFormed [
    .beq 32 0 0, .beq 0 32 0, .bne 32 0 0, .bne 0 32 0, .blez 32 0, .bgtz 32 0, .bltz 32 0, .bgez 32 0, .bltzal 32 0,
    .bgezal 32 0, .jr 32, .jalr 32 0, .jalr 0 32, .mfc0 32 0 0, .mfc0 0 32 0, .mfc0 0 0 8, .mtc0 32 0 0, .mtc0 0 32 0,
    .mtc0 0 0 8] = true := by decide

/-! ### Decoding: a word of the spec for every constructor (95_test_vectors.md; the fields by 30_encoding.md R112 to R115) -/

theorem test_decode_alu : decodes [
    (0x012A4020, .add 8 9 10), (0x00853021, .addu 6 4 5), (0x00853022, .sub 6 4 5), (0x00853023, .subu 6 4 5),
    (0x00853024, .and 6 4 5), (0x00853025, .or 6 4 5), (0x00853026, .xor 6 4 5), (0x00853027, .nor 6 4 5),
    (0x0085302A, .slt 6 4 5), (0x0085302B, .sltu 6 4 5), (0x0085300B, .movn 6 4 5), (0x0085300A, .movz 6 4 5)] = true := by
  decide

/-- A26: the rs field of SLL is ignored. -/
theorem test_decode_shift : decodes [
    (0x000537C0, .sll 6 5 31), (0x00E53100, .sll 6 5 4), (0x00053102, .srl 6 5 4), (0x00053103, .sra 6 5 4),
    (0x00853004, .sllv 6 5 4), (0x00853006, .srlv 6 5 4), (0x00853007, .srav 6 5 4)] = true := by decide

theorem test_decode_muldiv_trap : decodes [
    (0x00850018, .mult 4 5), (0x00850019, .multu 4 5), (0x0085001A, .div 4 5), (0x0085001B, .divu 4 5),
    (0x00003010, .mfhi 6), (0x00003012, .mflo 6), (0x00800011, .mthi 4), (0x00800013, .mtlo 4),
    (0x0085FFF4, .teq 4 5 0x3FF), (0x00850036, .tne 4 5 0), (0x00850030, .tge 4 5 0), (0x00850031, .tgeu 4 5 0),
    (0x00850032, .tlt 4 5 0), (0x00850033, .tltu 4 5 0), (0x03FFFFCC, .syscall 0xFFFFF), (0x0048D14D, .brk 0x12345),
    (0x03FFFFCF, .sync)] = true := by decide

/-- I25: the rs field of LUI is ignored. -/
theorem test_decode_immediate : decodes [
    (0x21280005, .addi 8 9 5), (0x2486FFFD, .addiu 6 4 0xFFFD), (0x30868001, .andi 6 4 0x8001), (0x34868001, .ori 6 4 0x8001),
    (0x3886FFFF, .xori 6 4 0xFFFF), (0x2886FFFF, .slti 6 4 0xFFFF), (0x2C868000, .sltiu 6 4 0x8000),
    (0x3C061234, .lui 6 0x1234), (0x3C861234, .lui 6 0x1234)] = true := by decide

theorem test_decode_loadStore : decodes [
    (0x8C86FFFC, .lw 6 4 0xFFFC), (0x84860004, .lh 6 4 4), (0x94860003, .lhu 6 4 3), (0x80860007, .lb 6 4 7),
    (0x90860007, .lbu 6 4 7), (0xAC85FF04, .sw 5 4 0xFF04), (0xA4850002, .sh 5 4 2), (0xA0850003, .sb 5 4 3),
    (0x88860001, .lwl 6 4 1), (0x98860001, .lwr 6 4 1), (0xA8850001, .swl 5 4 1), (0xB8850001, .swr 5 4 1),
    (0xC0860002, .ll 6 4 2), (0xE0850004, .sc 5 4 4)] = true := by decide

theorem test_decode_branch : decodes [
    (0x10850003, .beq 4 5 3), (0x1485FFFE, .bne 4 5 0xFFFE), (0x18800002, .blez 4 2), (0x1C80FFFD, .bgtz 4 0xFFFD),
    (0x04800002, .bltz 4 2), (0x04810002, .bgez 4 2), (0x04900004, .bltzal 4 4), (0x04910004, .bgezal 4 4),
    (0x0BFFFFFF, .j 0x3FFFFFF), (0x0C000080, .jal 0x80), (0x00800008, .jr 4), (0x00804809, .jalr 9 4)] = true := by decide

/-- C16 and C17: bits 20:6 of ERET and bits 10:3 of MFC0 are ignored. -/
theorem test_decode_cop0 : decodes [
    (0x40847801, .mtc0 4 15 1), (0x40056000, .mfc0 5 12 0), (0x400667F8, .mfc0 6 12 0), (0x42000018, .eret),
    (0x421FFFD8, .eret), (0x42000008, .tlbp), (0x42000001, .tlbr), (0x42000002, .tlbwi), (0x42000006, .tlbwr)] = true := by
  decide

/-- E21: the reserved words. -/
theorem test_reserved_words : ([
    0x00000001, 0x00000005, 0x0000000E, 0x00000014, 0x0000001C, 0x00000028, 0x0000002C, 0x00000035, 0x00000037, 0x0000003F,
    0x04020000, 0x04080000, 0x04120000, 0x041F0000, 0x40200000, 0x40400000, 0x40C00000, 0x41000000, 0x42000000, 0x42000003,
    0x4200001F, 0x42000020, 0x42200018, 0x44000000, 0x48000000, 0x4C000000, 0x50000000, 0x5C000000, 0x60000000, 0x70000002,
    0x7C000000, 0x9C000000, 0xBC000000, 0xC4000000, 0xCC000000, 0xDC000000, 0xE4000000, 0xFC000000, 0xFFFFFFFF].all
      fun w => (decodeTableWord 32 w).isNone) = true := by decide

/-- E21: executing one raises RI and halts. -/
theorem test_reserved_word_raises_ri : trap (start 0x0000003F []) = some (2, 0x28, 0x100, 0xBFC00180, false) := by decide

/-- Fewer than four bytes are no instruction. -/
theorem test_decode_short : errorOf (decode [0x00, 0x85, 0x30]) = true := by decide

/-- S3 and R122: the encoder's words, written out. -/
theorem test_encode :
    encode (.j 0x10) = 0x08000010 ∧ encode (.mtc0 7 12 0) = 0x40876000 ∧ encode (.bgezal 4 4) = 0x04910004 ∧
      encode .tlbwr = 0x42000006 ∧ encode (.jalr 9 4) = 0x00804809 := by decide

/-! ### R-type vectors -/

/-- A1, A7. -/
theorem test_add :
    gprs (start 0x00853020 [(4, 5), (5, 7)]) [6] = some ([0xC], 0x104) ∧
      gprs (start 0x00842020 [(4, 0x3FFFFFFF)]) [4] = some ([0x7FFFFFFE], 0x104) := by decide

/-- A5: the trap stays when rd is 0; S6: rd is kept. -/
theorem test_add_overflow :
    trap (start 0x00850020 [(4, 0x7FFFFFFF), (5, 0x7FFFFFFF)]) = some (2, 0x30, 0x100, 0xBFC00180, false) ∧
      gprs (start 0x00221820 [(1, 0x7FFFFFFF), (2, 1), (3, 0x55)]) [3] = some ([0x55], 0xBFC00180) := by decide

/-- A10. -/
theorem test_addu : gprs (start 0x00853021 [(4, 0xFFFFFFFF), (5, 0xFFFFFFFF)]) [6] = some ([0xFFFFFFFE], 0x104) := by decide

/-- A11, A15. -/
theorem test_sub :
    gprs (start 0x00853022 [(4, 5), (5, 7)]) [6] = some ([0xFFFFFFFE], 0x104) ∧
      gprs (start 0x00853022 [(4, 0x80000000), (5, 0x80000000), (6, 0xAAAA5555)]) [6] = some ([0], 0x104) := by decide

/-- A13. -/
theorem test_sub_overflow : trap (start 0x00853022 [(4, 0), (5, 0x80000000)]) = some (2, 0x30, 0x100, 0xBFC00180, false) := by
  decide

/-- A16. -/
theorem test_subu : gprs (start 0x00853023 [(4, 0x80000000), (5, 1)]) [6] = some ([0x7FFFFFFF], 0x104) := by decide

/-- A18. -/
theorem test_and : gprs (start 0x00853024 [(4, 0xFF00FF00), (5, 0x0FF00FF0)]) [6] = some ([0x0F000F00], 0x104) := by decide

/-- A19. -/
theorem test_or : gprs (start 0x00853025 [(4, 0xFF00FF00), (5, 0x0FF00FF0)]) [6] = some ([0xFFF0FFF0], 0x104) := by decide

/-- A20. -/
theorem test_xor : gprs (start 0x00853026 [(4, 0xFF00FF00), (5, 0x0FF00FF0)]) [6] = some ([0xF0F0F0F0], 0x104) := by decide

/-- A21. -/
theorem test_nor : gprs (start 0x00853027 [(4, 0xFF00FF00), (5, 0x0FF00FF0)]) [6] = some ([0x000F000F], 0x104) := by decide

/-- A24, A26. -/
theorem test_sll :
    gprs (start 0x000537C0 [(5, 0x80000001)]) [6] = some ([0x80000000], 0x104) ∧
      gprs (start 0x00E53100 [(5, 0x80000001), (7, 0x55)]) [6] = some ([0x10], 0x104) := by decide

/-- A27. -/
theorem test_srl : gprs (start 0x00053102 [(5, 0x80000001)]) [6] = some ([0x08000000], 0x104) := by decide

/-- A29, A31. -/
theorem test_sra :
    gprs (start 0x00053103 [(5, 0x80000001)]) [6] = some ([0xF8000000], 0x104) ∧
      gprs (start 0x000537C3 [(5, 0x7FFFFFFF), (6, 9)]) [6] = some ([0], 0x104) := by decide

/-- A32, A33: the mask is five bits. -/
theorem test_sllv :
    gprs (start 0x00853004 [(4, 0x21), (5, 0x80000001)]) [6] = some ([2], 0x104) ∧
      gprs (start 0x00853004 [(4, 0x10), (5, 0xFFFF)]) [6] = some ([0xFFFF0000], 0x104) := by decide

/-- A34. -/
theorem test_srlv : gprs (start 0x00853006 [(4, 0xFFFFFFE4), (5, 0x80000001)]) [6] = some ([0x08000000], 0x104) := by decide

/-- A35, A36. -/
theorem test_srav :
    gprs (start 0x00853007 [(4, 0x1F), (5, 0x80000001)]) [6] = some ([0xFFFFFFFF], 0x104) ∧
      gprs (start 0x00853007 [(4, 0x20), (5, 0x80000001)]) [6] = some ([0x80000001], 0x104) := by decide

/-- A37, A38. -/
theorem test_slt :
    gprs (start 0x0085302A [(4, 0xFFFFFFFF), (5, 1), (6, 9)]) [6] = some ([1], 0x104) ∧
      gprs (start 0x0085302A [(4, 1), (5, 0xFFFFFFFF), (6, 9)]) [6] = some ([0], 0x104) := by decide

/-- A41, A43. -/
theorem test_sltu :
    gprs (start 0x0085302B [(4, 0xFFFFFFFF), (5, 1), (6, 9)]) [6] = some ([0], 0x104) ∧
      gprs (start 0x0005302B [(5, 0x80000000), (6, 9)]) [6] = some ([1], 0x104) := by decide

/-- A44, A45. -/
theorem test_movn :
    gprs (start 0x0085300B [(4, 0x1234), (5, 1), (6, 9)]) [6] = some ([0x1234], 0x104) ∧
      gprs (start 0x0085300B [(4, 0x1234), (5, 0), (6, 9)]) [6] = some ([9], 0x104) := by decide

/-- A46, A47. -/
theorem test_movz :
    gprs (start 0x0085300A [(4, 0x1234), (5, 0), (6, 9)]) [6] = some ([0x1234], 0x104) ∧
      gprs (start 0x0085300A [(4, 0x1234), (5, 0x80000000), (6, 9)]) [6] = some ([9], 0x104) := by decide

/-- A6, A48: a write of $0 is dropped. -/
theorem test_write_of_zero_register :
    gprs (start 0x00850020 [(4, 1), (5, 2)]) [0, 4, 5] = some ([0, 1, 2], 0x104) ∧
      gprs (start 0x0085000A [(4, 0x1234)]) [0] = some ([0], 0x104) := by decide

/-! ### Multiply, divide, HI and LO -/

/-- M1, M2. -/
theorem test_mult :
    hiLoPc (startM 0x00850018 0xFFFFFFFE 3) = some (0xFFFFFFFF, 0xFFFFFFFA, 0x104) ∧
      hiLoPc (startM 0x00850018 0x80000000 0x80000000) = some (0x40000000, 0, 0x104) := by decide

/-- M6, M7. -/
theorem test_multu :
    hiLoPc (startM 0x00850019 0xFFFFFFFE 3) = some (2, 0xFFFFFFFA, 0x104) ∧
      hiLoPc (startM 0x00850019 0xFFFFFFFF 0xFFFFFFFF) = some (0xFFFFFFFE, 1, 0x104) := by decide

/-- M10, M11. -/
theorem test_div :
    hiLoPc (startM 0x0085001A 0xFFFFFFF9 2) = some (0xFFFFFFFF, 0xFFFFFFFD, 0x104) ∧
      hiLoPc (startM 0x0085001A 7 0xFFFFFFFE) = some (1, 0xFFFFFFFD, 0x104) := by decide

/-- M13, M14. -/
theorem test_div_corners :
    hiLoPc (startM 0x0085001A 0x80000000 0xFFFFFFFF) = some (0, 0x80000000, 0x104) ∧
      hiLoPc (startM 0x0085001A 7 0) = some (0, 0, 0x104) := by decide

/-- M16, M19. -/
theorem test_divu :
    hiLoPc (startM 0x0085001B 0xFFFFFFF9 2) = some (1, 0x7FFFFFFC, 0x104) ∧
      hiLoPc (startM 0x0085001B 0xFFFFFFFF 0) = some (0, 0, 0x104) := by decide

/-- M20. -/
theorem test_mfhi : gprs ((start 0x00003010 []).setHiLo 0xDEADBEEF 0x01234567) [6] = some ([0xDEADBEEF], 0x104) := by decide

/-- M21. -/
theorem test_mflo : gprs ((start 0x00003012 []).setHiLo 0xDEADBEEF 0x01234567) [6] = some ([0x01234567], 0x104) := by decide

/-- M23. -/
theorem test_mthi : hiLoPc ((start 0x00800011 [(4, 0xCAFEF00D)]).setHiLo 1 2) = some (0xCAFEF00D, 2, 0x104) := by decide

/-- M24. -/
theorem test_mtlo : hiLoPc ((start 0x00800013 [(4, 0xCAFEF00D)]).setHiLo 1 2) = some (1, 0xCAFEF00D, 0x104) := by decide

/-! ### Traps, SYSCALL, BREAK, SYNC -/

/-- The state after Tr from the vectors' start. -/
def trTaken : Option (Word × Word × Word × Word × Bool) := some (2, 0x34, 0x100, 0xBFC00180, false)

/-- The state after a trap that was not taken. -/
def trNot : Option (Word × Word × Word × Word × Bool) := some (0, 0, 0, 0x104, true)

/-- T1, T2. -/
theorem test_teq :
    trap (start 0x00850034 [(4, 5), (5, 5)]) = trTaken ∧ trap (start 0x00850034 [(4, 0xFFFFFFFF), (5, 1)]) = trNot := by decide

/-- T4, T5. -/
theorem test_tne :
    trap (start 0x00850036 [(4, 5), (5, 5)]) = trNot ∧ trap (start 0x00850036 [(4, 0xFFFFFFFF), (5, 1)]) = trTaken := by decide

/-- T7, T8. -/
theorem test_tge :
    trap (start 0x00850030 [(4, 5), (5, 5)]) = trTaken ∧ trap (start 0x00850030 [(4, 0xFFFFFFFF), (5, 1)]) = trNot := by decide

/-- T11, T12. -/
theorem test_tgeu :
    trap (start 0x00850031 [(4, 0xFFFFFFFF), (5, 1)]) = trTaken ∧
      trap (start 0x00850031 [(4, 1), (5, 0xFFFFFFFF)]) = trNot := by decide

/-- T13, T14. -/
theorem test_tlt :
    trap (start 0x00850032 [(4, 5), (5, 5)]) = trNot ∧ trap (start 0x00850032 [(4, 0xFFFFFFFF), (5, 1)]) = trTaken := by decide

/-- T17, T18. -/
theorem test_tltu :
    trap (start 0x00850033 [(4, 0xFFFFFFFF), (5, 1)]) = trNot ∧
      trap (start 0x00850033 [(4, 1), (5, 0xFFFFFFFF)]) = trTaken := by decide

/-- T21; T22, where HALT_CODES holds Sys too. -/
theorem test_syscall :
    trap (start 0x03FFFFCC []) = some (2, 0x20, 0x100, 0xBFC00180, true) ∧
      trap { start 0x0000000C [] with cfg := { smallConfig with haltCodes := [.sys] } } = some (2, 0x20, 0x100, 0xBFC00180, false) := by
  decide

/-- T24; T25, where HALT_CODES is empty. -/
theorem test_brk :
    trap (start 0x0048D14D []) = some (2, 0x24, 0x100, 0xBFC00180, false) ∧
      trap { start 0x0000000D [] with cfg := { smallConfig with haltCodes := [] } } = some (2, 0x24, 0x100, 0xBFC00180, true) := by
  decide

/-- T27. -/
theorem test_sync : trap (start 0x03FFFFCF []) = some (0, 0, 0, 0x104, true) := by decide

/-! ### Immediates -/

/-- I1, I5. -/
theorem test_addi :
    gprs (start 0x2086FFFD [(4, 5), (6, 9)]) [6] = some ([2], 0x104) ∧
      gprs (start 0x20867FFF [(4, 0x7FFF8000), (6, 9)]) [6] = some ([0x7FFFFFFF], 0x104) := by decide

/-- I4. -/
theorem test_addi_overflow :
    trap (start 0x20868000 [(4, 0x80007FFF), (6, 9)]) = some (2, 0x30, 0x100, 0xBFC00180, false) := by decide

/-- I9. -/
theorem test_addiu : gprs (start 0x24860001 [(4, 0x7FFFFFFF), (6, 9)]) [6] = some ([0x80000000], 0x104) := by decide

/-- I11. -/
theorem test_andi : gprs (start 0x30868001 [(4, 0xFFFFFFFF), (6, 9)]) [6] = some ([0x8001], 0x104) := by decide

/-- I12. -/
theorem test_ori : gprs (start 0x34868001 [(4, 0x12340000), (6, 9)]) [6] = some ([0x12348001], 0x104) := by decide

/-- I13. -/
theorem test_xori : gprs (start 0x3886FFFF [(4, 0xFFFFFFFF), (6, 9)]) [6] = some ([0xFFFF0000], 0x104) := by decide

/-- I15, I16. -/
theorem test_slti :
    gprs (start 0x2886FFFF [(4, 0xFFFFFFFE), (6, 9)]) [6] = some ([1], 0x104) ∧
      gprs (start 0x2886FFFF [(4, 0), (6, 9)]) [6] = some ([0], 0x104) := by decide

/-- I18, I20. -/
theorem test_sltiu :
    gprs (start 0x2C86FFFF [(4, 0), (6, 9)]) [6] = some ([1], 0x104) ∧
      gprs (start 0x2C868000 [(4, 0xFFFF7FFF), (6, 9)]) [6] = some ([1], 0x104) := by decide

/-- I24. -/
theorem test_lui : gprs (start 0x3C06FFFF [(6, 9)]) [6] = some ([0xFFFF0000], 0x104) := by decide

/-! ### Loads and stores -/

/-- L3, L10. -/
theorem test_lw :
    gprs (startL 0x8C86FFFC [(4, 0x208), (6, 9)]) [6] = some ([0x8899AABB], 0x104) ∧
      gprs (startL 0x8C840000 [(4, 0x200)]) [4] = some ([0x11223344], 0x104) := by decide

/-- L9, L7. -/
theorem test_lw_address_error :
    trap (startL 0x8C800001 regsL) = some (2, 0x10, 0x100, 0xBFC00180, false) ∧
      cp0After (startL 0x8C86FFFC [(4, 0), (6, 9)]) (·.badVAddr) = some (0xFFFFFFFC, 0xBFC00180) := by decide

/-- L11, L13. -/
theorem test_lh :
    gprs (startL 0x84860000 regsL) [6] = some ([0x1122], 0x104) ∧
      gprs (startL 0x84860006 regsL) [6] = some ([0xFFFFAABB], 0x104) := by decide

/-- L15, L16. -/
theorem test_lhu :
    gprs (startL 0x94860004 regsL) [6] = some ([0x8899], 0x104) ∧
      gprs (startL 0x94860003 regsL) [6] = some ([9], 0xBFC00180) := by decide

/-- L17, L19. -/
theorem test_lb :
    gprs (startL 0x80860000 regsL) [6] = some ([0x11], 0x104) ∧
      gprs (startL 0x80860007 regsL) [6] = some ([0xFFFFFFBB], 0x104) := by decide

/-- L20, L21: the first address beyond memory. -/
theorem test_lbu :
    gprs (startL 0x90860007 regsL) [6] = some ([0xBB], 0x104) ∧
      cp0After (startL 0x90860000 [(4, 0x1000), (6, 9)]) (·.badVAddr) = some (0x1000, 0xBFC00180) := by decide

/-- L23, L42. -/
theorem test_sw :
    memAfter (startL 0xAC850000 regsL) [0x200, 0x204] = some ([0xCAFEF00D, 0x8899AABB], 0xCAFEF00D, 0x104) ∧
      memAfter (startL 0xAC85FF04 [(4, 0x200), (5, 0xD)]) [0x104, 0x200] = some ([0xD, 0x11223344], 0xD, 0x104) := by decide

/-- L24: AdES, nothing stored. -/
theorem test_sw_address_error :
    trap (startL 0xAC850001 regsL) = some (2, 0x14, 0x100, 0xBFC00180, false) ∧
      memAfter (startL 0xAC850001 regsL) [0x200] = some ([0x11223344], 0xCAFEF00D, 0xBFC00180) := by decide

/-- L26, L28. -/
theorem test_sh :
    memAfter (startL 0xA4850002 regsL) [0x200, 0x204] = some ([0x1122F00D, 0x8899AABB], 0xCAFEF00D, 0x104) ∧
      memAfter (startL 0xA4850003 regsL) [0x200] = some ([0x11223344], 0xCAFEF00D, 0xBFC00180) := by decide

/-- L29, L30. -/
theorem test_sb :
    memAfter (startL 0xA0850000 regsL) [0x200, 0x204] = some ([0x0D223344, 0x8899AABB], 0xCAFEF00D, 0x104) ∧
      memAfter (startL 0xA0850003 regsL) [0x200] = some ([0x1122330D], 0xCAFEF00D, 0x104) := by decide

/-- L32. -/
theorem test_ll : gprs (startL 0xC0860000 regsL) [6] = some ([0x11223344], 0x104) := by decide

/-- L34, L35. -/
theorem test_sc :
    memAfter (startL 0xE0850004 regsL) [0x204] = some ([0xCAFEF00D], 1, 0x104) ∧
      memAfter (startL 0xE0850002 regsL) [0x200, 0x204] = some ([0x11223344, 0x8899AABB], 0xCAFEF00D, 0xBFC00180) := by decide

/-- L37; under `full`, by hand from the LWL line of 45_load_store.md R295 with b = 1 and w = 0x11223344. -/
theorem test_lwl :
    gprs (startL 0x88860001 regsL) [6] = some ([9], 0x104) ∧
      gprs (full (startL 0x88860001 [(4, 0x200), (6, 0xAABBCCDD)])) [6] = some ([0x223344DD], 0x104) := by decide

/-- L38; as for LWL. -/
theorem test_lwr :
    gprs (startL 0x98860001 regsL) [6] = some ([9], 0x104) ∧
      gprs (full (startL 0x98860001 [(4, 0x200), (6, 0xAABBCCDD)])) [6] = some ([0xAABB1122], 0x104) := by decide

/-- L39; as for LWL. -/
theorem test_swl :
    memAfter (startL 0xA8850001 regsL) [0x200] = some ([0x11223344], 0xCAFEF00D, 0x104) ∧
      memAfter (full (startL 0xA8850001 regsL)) [0x200] = some ([0x11CAFEF0], 0xCAFEF00D, 0x104) := by decide

/-- L40; as for LWL. -/
theorem test_swr :
    memAfter (startL 0xB8850001 regsL) [0x200] = some ([0x11223344], 0xCAFEF00D, 0x104) ∧
      memAfter (full (startL 0xB8850001 regsL)) [0x200] = some ([0xF00D3344], 0xCAFEF00D, 0x104) := by decide

/-! ### Branches and jumps -/

/-- B1, B2. -/
theorem test_beq :
    slot (start 0x10850003 [(4, 7), (5, 7)]) = some (0x104, true, 0x110) ∧
      slot (start 0x10850003 [(4, 7), (5, 8)]) = some (0x104, false, 0) := by decide

/-- B3 moved to 0x100: the target is 0x104 - 8. -/
theorem test_bne :
    slot (start 0x1485FFFE [(4, 1), (5, 2)]) = some (0x104, true, 0xFC) ∧
      slot (start 0x1485FFFE [(4, 2), (5, 2)]) = some (0x104, false, 0) := by decide

/-- B4, B5. -/
theorem test_blez :
    slot (start 0x18800002 [(4, 0)]) = some (0x104, true, 0x10C) ∧
      slot (start 0x18800002 [(4, 0x80000000)]) = some (0x104, true, 0x10C) := by decide

/-- B4, B5. -/
theorem test_bgtz :
    slot (start 0x1C800002 [(4, 0)]) = some (0x104, false, 0) ∧
      slot (start 0x1C800002 [(4, 0x80000000)]) = some (0x104, false, 0) ∧
      slot (start 0x1C800002 [(4, 1)]) = some (0x104, true, 0x10C) := by decide

/-- B4, B5. -/
theorem test_bltz :
    slot (start 0x04800002 [(4, 0)]) = some (0x104, false, 0) ∧
      slot (start 0x04800002 [(4, 0x80000000)]) = some (0x104, true, 0x10C) := by decide

/-- B4, B5. -/
theorem test_bgez :
    slot (start 0x04810002 [(4, 0)]) = some (0x104, true, 0x10C) ∧
      slot (start 0x04810002 [(4, 0x80000000)]) = some (0x104, false, 0) := by decide

/-- B6: the link is written though the branch is not taken. -/
theorem test_bltzal :
    slot (start 0x04900004 [(4, 5)]) = some (0x104, false, 0) ∧
      gprs (start 0x04900004 [(4, 5)]) [31] = some ([0x108], 0x104) := by decide

/-- B6, at 0x100. -/
theorem test_bgezal :
    slot (start 0x04910004 [(4, 5)]) = some (0x104, true, 0x114) ∧
      gprs (start 0x04910004 [(4, 5)]) [31] = some ([0x108], 0x104) := by decide

/-- B7, B9 (MEM_SIZE = 2^32): the region is that of PC + 4. -/
theorem test_j :
    slot (start 0x08000044 []) = some (0x104, true, 0x110) ∧
      slot (place { State.reset with pc := 0x0FFFFFFC, running := true } 0x0FFFFFFC 0x08000010) =
        some (0x10000000, true, 0x10000040) := by decide

/-- B7, at 0x100. -/
theorem test_jal :
    slot (start 0x0C000080 []) = some (0x104, true, 0x200) ∧
      gprs (start 0x0C000080 []) [31] = some ([0x108], 0x104) := by decide

/-- B10, B11: no check of the target at the jump. -/
theorem test_jr :
    slot (start 0x00800008 [(4, 0x110)]) = some (0x104, true, 0x110) ∧
      slot (start 0x00800008 [(4, 0x302)]) = some (0x104, true, 0x302) := by decide

/-- B10; B12: rd = rs jumps to the link. -/
theorem test_jalr :
    slot (start 0x00A0F809 [(5, 0x120)]) = some (0x104, true, 0x120) ∧
      slot (start 0x00802009 [(4, 0x300)]) = some (0x104, true, 0x108) := by decide

/-- B14: a branch not taken in a delay slot; a jump there is refused (R163). -/
theorem test_branch_in_slot :
    slot (inSlot (start 0x14000005 []) 0x110) = some (0x110, false, 0x110) ∧
      refusalOf (step (inSlot (start 0x08000044 []) 0x110)) = some .controlTransferInDelaySlot := by decide

/-! ### COP0 -/

/-- What C1 reads after writing all ones, and after writing zero then. -/
def onesThenZero (reg sel : Nat) : Word × Word :=
  ((small.hostSetCp0 reg sel 0xFFFFFFFF).getCp0 reg sel,
    ((small.hostSetCp0 reg sel 0xFFFFFFFF).hostSetCp0 reg sel 0).getCp0 reg sel)

/-- C1, the registers with a mask. -/
theorem test_cp0_masks :
    onesThenZero 0 0 = (0xF, 0) ∧ onesThenZero 1 0 = (0xF, 0xF) ∧ onesThenZero 2 0 = (0x3FFFFFFF, 0) ∧
      onesThenZero 3 0 = (0x3FFFFFFF, 0) ∧ onesThenZero 5 0 = (0x01FFE000, 0) ∧ onesThenZero 6 0 = (0xF, 0) ∧
      onesThenZero 8 0 = (0, 0) ∧ onesThenZero 10 0 = (0xFFFFE0FF, 0) ∧ onesThenZero 13 0 = (0x00800300, 0) ∧
      onesThenZero 15 0 = (0, 0) ∧ onesThenZero 16 0 = (0x80000007, 0x80000000) ∧ onesThenZero 16 1 = (0, 0) := by decide

/-- C1, the registers written whole, and the pairs that are no register. -/
theorem test_cp0_whole :
    ([(4, 0), (9, 0), (11, 0), (12, 0), (14, 0), (15, 1), (17, 0), (18, 0), (19, 0), (20, 0), (30, 0)].all
      fun p => onesThenZero p.1 p.2 == (0xFFFFFFFF, 0)) = true ∧
    ([(0, 1), (7, 0), (9, 7), (12, 1), (15, 2), (16, 2), (31, 0)].all fun p => onesThenZero p.1 p.2 == (0, 0)) = true := by decide

/-- C2; C3, steps 1 and 2 in one state each. -/
theorem test_mfc0 :
    gprs (startC 0x40056000 (fun c => { c with status := 0x30000000 }) []) [5] = some ([0x30000000], 0x104) ∧
      gprs (startC 0x40060800 (fun c => { c with wired := 13 }) []) [6] = some ([0xE], 0x104) ∧
      gprs (start 0x40076001 [(7, 9)]) [7] = some ([0], 0x104) := by decide

/-- C2, C3, C4 (step 5), E12 (step 4). -/
theorem test_mtc0 :
    cp0After (start 0x40876000 [(7, 0x30000000)]) (·.status) = some (0x30000000, 0x104) ∧
      cp0After (start 0x40843000 [(4, 13)]) (fun c => (c.wired, c.random, c.count)) = some ((13, 15, 1), 0x104) ∧
      cp0After (startC 0x40850000 (fun c => { c with index := 0x80000000 }) [(5, 3)]) (·.index) = some (0x80000003, 0x104) ∧
      cp0After (startC 0x40845800 (fun c => { c with cause := 0x40008000 }) [(4, 100)]) (fun c => (c.compare, c.cause)) =
        some ((100, 0), 0x104) := by decide

/-- C9, C10. -/
theorem test_eret :
    cp0After (startC 0x42000018 (fun c => { c with epc := 0x80001000, status := 2, cause := 0x80000020 }) [])
        (fun c => (c.status, c.cause)) = some ((0, 0x20), 0x80001000) ∧
      cp0After (startC 0x42000018 (fun c => { c with epc := 0x80001000, errorEpc := 0x80002000, status := 6 }) [])
        (·.status) = some (2, 0x80002000) := by decide

/-- C11. -/
theorem test_eret_bare : slot (startC 0x42000018 (fun c => { c with epc := 0x200, status := 1 }) []) = some (0x200, false, 0) := by
  decide

/-- The entry of C5. -/
def entryC5 : TlbEntry where
  vpn2 := 0x91A3
  asid := 0x55
  g := true
  mask := 3
  pfn0 := 0x12345
  c0 := 3
  d0 := true
  v0 := true
  pfn1 := 0x12346
  c1 := 2
  d1 := true
  v1 := true

/-- A start state with the entry of C5 at position 3. -/
def startTlb (w : Word) (c : Cp0 → Cp0) : State := (startC w c []).setTlb ((List.replicate 16 TlbEntry.zero).set 3 entryC5)

/-- C5, step 6. -/
theorem test_tlbwi :
    ((stateOf (step (startC 0x42000002 (fun c => { c with
      index := 3, entryHi := 0x12346055, entryLo0 := 0x0048D15F, entryLo1 := 0x0048D197, pageMask := 0x6000 }) []))).map
        fun t => (t.tlb[3]?, t.tlb[2]?)) = some (some entryC5, some TlbEntry.zero) := by decide

/-- C5, step 11. -/
theorem test_tlbr :
    cp0After (startTlb 0x42000001 (fun c => { c with index := 3 }))
      (fun c => (c.entryHi, c.entryLo0, c.entryLo1, c.pageMask)) =
        some ((0x12346055, 0x0048D15F, 0x0048D197, 0x6000), 0x104) := by decide

/-- C5, steps 13, 17 and 20. -/
theorem test_tlbp :
    cp0After (startTlb 0x42000008 (fun c => { c with entryHi := 0x12346055 })) (·.index) = some (3, 0x104) ∧
      cp0After (startTlb 0x42000008 (fun c => { c with entryHi := 0x12346056 })) (·.index) = some (3, 0x104) ∧
      cp0After (startTlb 0x42000008 (fun c => { c with entryHi := 0x12348056 })) (·.index) = some (0x80000000, 0x104) := by decide

/-- C7, steps 1 and 3. -/
theorem test_tlbwr :
    ((stateOf (step (startC 0x42000006 (fun c => { c with wired := 4, random := 9, entryHi := 0x2000 }) []))).map
        fun t => (t.cp0.random, (t.tlb[8]?).map (·.vpn2), (t.tlb[9]?).map (·.vpn2))) = some (7, some 1, some 0) ∧
      cp0After (startC 0x42000006 (fun c => { c with wired := 4, random := 5 }) []) (·.random) = some (15, 0x104) := by decide

/-- C8: with Index.P = 1 TLBWI and TLBR do nothing. -/
theorem test_tlb_after_failed_probe :
    ((stateOf (step (startC 0x42000002 (fun c => { c with index := 0x80000000, entryHi := 0x4000 }) []))).map
        fun t => t.tlb == List.replicate 16 TlbEntry.zero) = some true ∧
      cp0After (startC 0x42000001 (fun c => { c with index := 0x80000000, entryHi := 0x4000 }) []) (·.entryHi) =
        some (0x4000, 0x104) := by decide

/-! ### Exceptions, interrupts, the timer, fetch -/

/-- E1, step 2: in a delay slot. -/
theorem test_syscall_in_slot :
    trap (inSlot (start 0x0000000C []) 0x110) = some (2, 0x80000020, 0xFC, 0xBFC00180, true) ∧
      slot (inSlot (start 0x0000000C []) 0x110) = some (0xBFC00180, false, 0x110) := by decide

/-- A start state with an interrupt pending on line 2, and Cause's other bits. -/
def startIrq (w cause : Word) : State := startC w (fun c => { c with status := 0x401, cause := cause }) []

/-- E4, at 0x100. -/
theorem test_interrupt : trap (startIrq 0x24070002 0x400) = some (0x403, 0x400, 0x100, 0xBFC00180, true) := by decide

/-- E5 at 0x100 (IV), and E10 (in a delay slot). -/
theorem test_interrupt_iv_and_slot :
    trap (startIrq 0x24070002 0x800400) = some (0x403, 0x800400, 0x100, 0xBFC00200, true) ∧
      trap (inSlot (startIrq 0x24070002 0x400) 0x200) = some (0x403, 0x80000400, 0xFC, 0xBFC00180, true) := by decide

/-- E4: the register of the interrupted word keeps its value. -/
theorem test_interrupted_word : gprs (startIrq 0x24070002 0x400) [7] = some ([0], 0xBFC00180) := by decide

/-- E7a to E7d: not taken. -/
theorem test_interrupt_masked :
    ([(0x400, 0x400), (0x403, 0x400), (0x405, 0x400), (0x801, 0x400)].all fun (p : Word × Word) =>
      gprs (startC 0x24060001 (fun c => { c with status := p.1, cause := p.2 }) []) [6] == some ([1], 0x104)) = true := by decide

/-- E11, step 3; E13, step 1. -/
theorem test_timer :
    trap (startC 0x24060001 (fun c => { c with count := 2, compare := 3, status := 0x8001 }) []) =
        some (0x8003, 0x40008000, 0x100, 0xBFC00180, true) ∧
      cp0After (startC 0 (fun c => { c with count := 0xFFFFFFFF }) []) (fun c => (c.count, c.cause)) = some ((0, 0), 0x104) := by
  decide

/-- E14, step 2; E15, step 2: the fetch beyond memory; Count does not move. -/
theorem test_failed_fetch :
    trap { small with pc := 0x1000 } = some (2, 0x10, 0x1000, 0xBFC00180, false) ∧
      cp0After { small with pc := 0x1000 } (fun c => (c.badVAddr, c.count, c.random)) = some ((0x1000, 0, 15), 0xBFC00180) ∧
      trap (inSlot { small with pc := 0x1000 } 0xFF0) = some (2, 0x80000010, 0xFFC, 0xBFC00180, false) := by decide

/-- E16, E17, E18a to E18c: the vectors. -/
theorem test_vectors :
    slot (startC 0xC (fun c => { c with ebase := 0xBFBFF000 }) []) = some (0xBFBFF180, false, 0) ∧
      slot (startC 0 (fun c => { c with ebase := 0x80000000, status := 0x101, cause := 0x800100 }) []) = some (0x80000200, false, 0) ∧
      slot (startC 0xC (fun c => { c with ebase := 0xBFC00000 }) []) = some (0xBFC00180, false, 0) ∧
      slot (startC 0xC (fun c => { c with ebase := 0xC0000000 }) []) = some (0xBFC00180, false, 0) ∧
      slot (startC 0xC (fun c => { c with ebase := 0x7FFFF000 }) []) = some (0xBFC00180, false, 0) := by decide

/-- E19: EPC and BD are written though EXL was 1. -/
theorem test_nested_exception :
    trap (startC 0xC (fun c => { c with status := 2, epc := 0x444, cause := 0x80000030 }) []) =
      some (2, 0x20, 0x100, 0xBFC00180, true) := by decide

/-- A stopped core takes no step (R151). -/
theorem test_stopped : trap { start 0xC [] with running := false } = some (0, 0, 0, 0x100, false) := by decide

/-- The first instruction after reset, S2's word: `addi $8,$9,5` with GPR 9 = 0. -/
theorem test_first_instruction : gprs (State.reset.withFetchWord 32 0x21280005) [8] = some ([5], 4) := by decide

/-- S7's instance: bytes most significant first; and the accesses outside its precondition. -/
theorem test_store_word :
    ((small.store32 0x200 0xDEADBEEF).map fun t => (t.readByte 0x200, t.readByte 0x203, t.load32 0x200)) =
        some (0xDE, 0xEF, some 0xDEADBEEF) ∧
      small.store32 0x202 1 = none ∧ small.store32 0xFFE 1 = none ∧ small.store32 0x1000 1 = none ∧ small.load32 0x202 = none := by
  decide

/-- Writing the byte an unlisted address reads as removes the cell. -/
theorem test_memory_canonical :
    Memory.write (Memory.write [] 5 1) 3 2 = [(3, 2), (5, 1)] ∧ Memory.write [(3, 2), (5, 1)] 3 0 = [(5, 1)] := by decide

/-- The loader (R438): the image, then PC; refused while running, a fault where the image does not fit. -/
theorem test_loader :
    ((stateOf (act (.load 0x100 [1, 2]) (State.newCpu smallConfig))).map fun t => (t.mem, t.pc)) =
        some ([(0x100, 1), (0x101, 2)], 0) ∧
      refusalOf (act (.load 0 []) small) = some .loadWhileRunning ∧ refusalOf (act .run small) = some .runWhileRunning ∧
      stateOf (act (.load 0xFFF [1, 2]) (State.newCpu smallConfig)) = none := by decide

/-! ### Witnesses: states and operands that meet the hypotheses of each obligation together -/

theorem witness_DecodeOfEncodeIsTheInstruction : (Instr.jalr 31 31).wellFormed = true := by decide

theorem witness_DecodedWordMatchesItsRow : decodeWord 0x421FFFD8 = .ok .eret := rfl

/-- Clause 1 on a decoded and on a reserved word; clause 2. -/
theorem witness_ReservedWordsAreThoseOfNoRow :
    errorOf (decodeWord 0x42200018) = true ∧ (∀ r ∈ opcodeRows, (0x42200018 : Word) &&& r.mask ≠ r.value) ∧
      errorOf (decodeWord 0x42000018) = false ∧
      (start 0x42200018 []).front = .ready 0x42200018 (start 0x42200018 []).tick := by decide

/-- Two words that differ in ignored bits alone. -/
theorem witness_OnlyRowAndOperandBitsAreRead :
    decodeWord 0x42000018 = .ok .eret ∧
      (0x421FFFD8 : Word) &&& (Instr.eret.row.mask ||| Instr.eret.operandMask) =
        0x42000018 &&& (Instr.eret.row.mask ||| Instr.eret.operandMask) := ⟨rfl, by decide⟩

/-- The last word of memory. -/
theorem witness_StepExecutesTheInstructionAtPc :
    let s := place { small with pc := 0xFFC } 0xFFC 0x01094020
    s.running = true ∧ s.admits s.pc 4 ∧
      decode [s.readByte s.pc.toNat, s.readByte (s.pc.toNat + 1), s.readByte (s.pc.toNat + 2), s.readByte (s.pc.toNat + 3)] =
        .ok (.add 8 8 9, []) ∧
      s.tick.cp0.pendingInterrupt = false := ⟨by decide, by decide, rfl, by decide⟩

/-- Misaligned below MEM_SIZE, and aligned at MEM_SIZE. -/
theorem witness_FailedFetchTakesAdel :
    (small.running = true ∧ ({ small with pc := 0xFFB } : State).pc.toNat % 4 ≠ 0) ∧
      ({ small with pc := 0x1000 } : State).cfg.memSize ≤ ({ small with pc := 0x1000 } : State).pc.toNat + 3 := by decide

theorem witness_PendingInterruptIsTakenBeforeExecution :
    (startIrq 0x24070002 0x400).running = true ∧ (startIrq 0x24070002 0x400).load32 0x100 = some 0x24070002 ∧
      (startIrq 0x24070002 0x400).tick.cp0.pendingInterrupt = true := by decide

/-- Each row of the table, EBase at both ends of its range. -/
theorem witness_VectorFollowsEbaseAndIv :
    let low : Cp0 := { small.cp0 with ebase := 0x80000000, cause := 0x00800000 }
    let high : Cp0 := { small.cp0 with ebase := 0xBFBFFFFF }
    let above : Cp0 := { small.cp0 with ebase := 0xBFC00000, cause := 0x00800000 }
    let below : Cp0 := { small.cp0 with ebase := 0x7FFFFFFF }
    (low.ebase.msb = true ∧ low.ebase < 0xBFC00000#32 ∧ low.cause.getLsbD 23 = true) ∧
      (high.ebase.msb = true ∧ high.ebase < 0xBFC00000#32 ∧ high.cause.getLsbD 23 = false) ∧
      (¬(above.ebase < 0xBFC00000#32) ∧ above.cause.getLsbD 23 = true) ∧
      (below.ebase.msb = false ∧ below.cause.getLsbD 23 = false) := by decide

/-- A stopped core; a step that stops it; a step that does not. -/
theorem witness_OnlyFatalExceptionsStopTheCore :
    ({ small with running := false } : State).running = false ∧
      ((stateOf (step (start 0xD []))).map (·.running)) = some false ∧
      ((stateOf (step (start 0xC []))).map (·.running)) = some true := by decide

/-- A match and a tick that is none. -/
theorem witness_TickCountsAndFiresOnTheExactMatch :
    let hit : Cp0 := { small.cp0 with count := 0xFFFFFFFE, compare := 0xFFFFFFFF }
    let past : Cp0 := { small.cp0 with count := 3, compare := 3 }
    (hit.compare ≠ 0 ∧ hit.tick.count = hit.compare) ∧ ¬(past.compare ≠ 0 ∧ past.tick.count = past.compare) := by decide

/-- At Wired, above it, and the range of the third clause at its ends. -/
theorem witness_RandomStepCyclesAboveWired :
    let low : Cp0 := { small.cp0 with wired := 63, random := 63 }
    let top : Cp0 := { small.cp0 with wired := 0, random := 63 }
    low.random.toNat ≤ low.wired.toNat ∧ low.wired.toNat < 64 ∧ low.random.toNat < 64 ∧
      top.wired.toNat < top.random.toNat ∧ top.random.toNat < 64 ∧ small.cp0.wired.toNat < 1 := by decide

theorem smallConfig_wf : smallConfig.wf := by decide

theorem witness_ResetSatisfiesTheInvariants : Config.default.wf ∧ smallConfig.wf := by decide

theorem small_inv : Inv (start 0x42000002 []) where
  cfg_wf := by decide
  gpr_zero := by decide
  cp0_inv := by constructor <;> decide
  tlb_length := by decide
  mem_wf := by decide
  mem_within := by decide

theorem witness_EveryStepKeepsTheInvariants : ∃ s t, Inv s ∧ step s = .next t := ⟨_, _, small_inv, rfl⟩

theorem witness_EveryHostActionKeepsTheInvariants : ∃ a s t, Inv s ∧ act a s = .next t :=
  ⟨.setCp0 13 0 0xFFFFFFFF, _, _, small_inv, rfl⟩

/-- The reset state with a loaded word. -/
def loaded : State := { State.newCpu smallConfig with mem := [(0, 0x42), (3, 2)] }

def setRunning (s : State) : State := { s with running := true }

/-- A state after a load, a run and a step. -/
theorem witness_ReachableStatesSatisfyTheInvariants : ∃ s t, Reachable s ∧ s.running = true ∧ step s = .next t ∧ Reachable t := by
  have h : Reachable (setRunning loaded) := .act .run (.act (.load 0 [0x42, 0, 0, 2]) (.reset smallConfig smallConfig_wf) rfl) rfl
  exact ⟨_, _, h, rfl, rfl, .step h rfl⟩

theorem witness_InDelayOnlyAfterAJumpOrTakenBranch :
    (start 0x08000044 []).running = true ∧ ((stateOf (step (start 0x08000044 []))).map (·.inDelay)) = some true := by decide

/-- One for each of the four outcomes. -/
theorem witness_EveryInstructionEndsInOneOfFourOutcomes :
    (∃ t, exec .sync small = .next t) ∧ (∃ t, exec (.j 0) small = .next t) ∧ (∃ t, exec .eret small = .next t) ∧
      ∃ t, exec (.syscall 0) small = .next t := ⟨⟨_, rfl⟩, ⟨_, rfl⟩, ⟨_, rfl⟩, ⟨_, rfl⟩⟩

theorem witness_ReadOnlyRegistersAndParametersNeverChange :
    (∃ t, step (start 0x40848000 [(4, 0xFFFFFFFF)]) = .next t) ∧ ∃ t, act (.setCp0 16 0 0xFFFFFFFF) small = .next t :=
  ⟨⟨_, rfl⟩, ⟨_, rfl⟩⟩

/-- Context changes; ERL goes from 0 to 1. -/
theorem witness_SoftwareRegistersChangeOnlyByMtc0 :
    cp0After (start 0x40842000 [(4, 5)]) (fun c => c.read 4 0 != small.cp0.read 4 0) = some (true, 0x104) ∧
      small.cp0.erl = false ∧ cp0After (start 0x40846000 [(4, 4)]) (·.erl) = some (true, 0x104) := by decide

theorem witness_OnlyStoresChangeMemory :
    ((stateOf (step (startL 0xA0850000 regsL))).map fun t => t.readByte 0x200 != (startL 0xA0850000 regsL).readByte 0x200) =
      some true := by decide

/-- A load with another TLB in place; a refused jump. -/
theorem witness_OnlyTlbInstructionsUseTheTlb :
    Instr.lw 6 4 0 ∉ [Instr.tlbp, .tlbr, .tlbwi, .tlbwr] ∧ (∃ t, exec (.lw 6 4 0) (setGprs small [(4, 0x200)]) = .next t) ∧
      Instr.j 0 ∉ [Instr.tlbp, .tlbr, .tlbwi, .tlbwr] ∧
      refusalOf (exec (.j 0) (inSlot small 0)) = some .controlTransferInDelaySlot :=
  ⟨by decide, ⟨_, rfl⟩, by decide, by decide⟩

theorem witness_StepStopsOnlyOnATransferInADelaySlot :
    refusalOf (step (inSlot (start 0x42000018 []) 0x110)) = some .controlTransferInDelaySlot := by decide

/-- A slot, with each branch both taken and not. -/
theorem witness_TransferInADelaySlotIsRefused :
    (inSlot small 0x110).inDelay = true ∧
      refusalOf (exec (.bgezal 0 1) (inSlot small 0x110)) = some .controlTransferInDelaySlot ∧
      refusalOf (exec (.bltzal 0 1) (inSlot small 0x110)) = none := by decide

/-- The boundaries of the sum and the difference. -/
theorem witness_AddAndSubGiveTheExactResultOrTakeOv :
    let s := setGprs small [(4, 0x7FFFFFFF), (5, 0), (6, 1), (7, 0x80000000)]
    fitsSigned ((s.readGpr 4).toInt + (s.readGpr 5).toInt) ∧ ¬fitsSigned ((s.readGpr 4).toInt + (s.readGpr 6).toInt) ∧
      fitsSigned ((s.readGpr 7).toInt - (s.readGpr 5).toInt) ∧ ¬fitsSigned ((s.readGpr 7).toInt - (s.readGpr 6).toInt) := by
  decide

/-- SYSCALL and BREAK: the default HALT_CODES. -/
theorem witness_SyscallBreakAndSync : small.cfg.haltCodes = Config.default.haltCodes := rfl

/-- The register statements' only hypotheses are the bounds of register numbers and amounts. -/
theorem witness_register_bounds : (0 : Nat) < 32 ∧ (31 : Nat) < 32 := by decide

/-- Each clause of the conditional moves. -/
theorem witness_ConditionalMovesTestRt : small.readGpr 5 = 0 ∧ (setGprs small [(5, 0x80000000)]).readGpr 5 ≠ 0 := by decide

/-- Each clause of the division. -/
theorem witness_DivideGivesQuotientAndRemainder :
    let s := setGprs small [(4, 0x80000000), (5, 0xFFFFFFFF), (6, 1)]
    s.readGpr 0 = 0 ∧ (s.readGpr 4 = 0x80000000 ∧ s.readGpr 5 = 0xFFFFFFFF) ∧ s.readGpr 6 ≠ 0 := by decide

/-- I5 and I4: the boundaries of the immediate sum. -/
theorem witness_AddImmediateGivesTheExactSumOrTakesOv :
    let s := setGprs small [(4, 0x7FFF8000), (5, 0x80007FFF)]
    fitsSigned ((s.readGpr 4).toInt + (0x7FFF : BitVec 16).toInt) ∧
      ¬fitsSigned ((s.readGpr 5).toInt + (0x8000 : BitVec 16).toInt) := by decide

/-- The last address admitted and the first that is not, for each width; a misaligned one too. -/
theorem witness_StoredValueIsReadBack :
    small.mem.wf ∧ small.admits 0xFFC 4 ∧ ¬small.admits 0x1000 4 ∧ ¬small.admits 0xFFA 4 ∧
      small.admits 0xFFE 2 ∧ ¬small.admits 0x1000 2 ∧ ¬small.admits 0xFFD 2 ∧ small.admits 0xFFF 1 ∧ ¬small.admits 0x1000 1 := by
  decide

/-- The address of a load with a negative offset, admitted and not. -/
theorem witness_LoadsReadMemoryOrTakeAdel :
    let s := setGprs small [(4, 0x1000)]
    s.admits (BitVec.ofInt 32 ((s.readGpr 4).toInt + (0xFFFC : BitVec 16).toInt)) 4 ∧
      ¬s.admits (BitVec.ofInt 32 ((s.readGpr 4).toInt + (0xFFFE : BitVec 16).toInt)) 4 ∧
      s.admits (BitVec.ofInt 32 ((s.readGpr 4).toInt + (0xFFFE : BitVec 16).toInt)) 2 ∧
      ¬s.admits (BitVec.ofInt 32 ((s.readGpr 4).toInt + (0xFFFF : BitVec 16).toInt)) 2 ∧
      s.admits (BitVec.ofInt 32 ((s.readGpr 4).toInt + (0xFFFF : BitVec 16).toInt)) 1 ∧
      ¬s.admits (BitVec.ofInt 32 ((s.readGpr 4).toInt + (0 : BitVec 16).toInt)) 1 := by decide

/-- The same addresses, as the meaning computes them. -/
theorem witness_StoresWriteTheirBytesOrTakeAdes :
    let s := setGprs small [(4, 0x1000)]
    s.mem.wf ∧ s.admits (s.effAddr 4 0xFFFC) 4 ∧ ¬s.admits (s.effAddr 4 0xFFFE) 4 ∧ s.admits (s.effAddr 4 0xFFFE) 2 ∧
      ¬s.admits (s.effAddr 4 0xFFFF) 2 ∧ s.admits (s.effAddr 4 0xFFFF) 1 ∧ ¬s.admits (s.effAddr 4 0) 1 := by decide

theorem witness_UnalignedStubsOnlyMovePc : small.cfg.unalignedLs = .stub := by decide

/-- The last and the first address in each of the two cases. -/
theorem witness_UnalignedLoadsMergeBytes :
    let s := full (setGprs small [(4, 0x1000)])
    s.cfg.unalignedLs = .full ∧ 4 * ((s.effAddr 4 0xFFFF).toNat / 4) + 3 < s.cfg.memSize ∧
      s.cfg.memSize ≤ 4 * ((s.effAddr 4 0).toNat / 4) + 3 := by decide

theorem witness_UnalignedStoresWritePartOfTheWord :
    let s := full (setGprs small [(4, 0x1000)])
    s.mem.wf ∧ s.cfg.unalignedLs = .full ∧ 4 * ((s.effAddr 4 0xFFFF).toNat / 4) + 3 < s.cfg.memSize ∧
      s.cfg.memSize ≤ 4 * ((s.effAddr 4 0).toNat / 4) + 3 := by decide

/-- The hypothesis of the branch, jump and ERET statements. -/
theorem witness_outside_a_delay_slot : small.inDelay = false := by decide

/-- ERET's two clauses. -/
theorem witness_EretReturns :
    ({ small.cp0 with status := 6 } : Cp0).erl = true ∧ ({ small.cp0 with status := 2 } : Cp0).erl = false := by decide

/-- Pairs that are no register. -/
theorem witness_Mfc0ReadsTheNamedRegister :
    ([(0, 1), (7, 0), (31, 0)].all fun (p : Nat × Nat) => p ∉ [(0, 0), (1, 0), (2, 0), (3, 0), (4, 0), (5, 0), (6, 0), (8, 0), (9, 0),
      (10, 0), (11, 0), (12, 0), (13, 0), (14, 0), (15, 0), (15, 1), (16, 0), (16, 1), (17, 0), (18, 0), (19, 0), (20, 0),
      (30, 0)]) = true := by decide

/-- The invariant and the size; the clauses are told apart by (reg, sel). -/
theorem witness_Mtc0WritesThroughTheMask :
    small.cp0.Inv small.cfg ∧ 1 ≤ small.cfg.tlbSize ∧ small.cfg.tlbSize ≤ 64 :=
  ⟨small_inv.cp0_inv, by decide, by decide⟩

theorem witness_ProbeFindsTheFirstMatch : small.tlb.length ≤ 64 := by decide

/-- P set; P clear, and the last entry. -/
theorem witness_IndexedTlbWriteAndRead :
    ({ small.cp0 with index := 0x80000003 } : Cp0).indexP = true ∧ ({ small.cp0 with index := 15 } : Cp0).indexP = false ∧
      ({ small.cp0 with index := 15 } : Cp0).indexField < small.tlb.length := by decide

/-- S8's instance. -/
def roundTripState : State := startC 0x42000002 (fun c => { c with
  index := 3, entryHi := 0x12346055, entryLo0 := 0x0048D15F, entryLo1 := 0x0048D197, pageMask := 0x6000 }) []

theorem roundTripState_inv : Inv roundTripState where
  cfg_wf := by decide
  gpr_zero := by decide
  cp0_inv := by constructor <;> decide
  tlb_length := by decide
  mem_wf := by decide
  mem_within := by decide

theorem witness_TlbRoundTrip :
    Inv roundTripState ∧ roundTripState.cp0.indexP = false ∧
      roundTripState.cp0.entryLo0.getLsbD 0 = roundTripState.cp0.entryLo1.getLsbD 0 ∧
      roundTripState.cp0.entryLo0 &&& 0x3C000000 = 0 ∧ roundTripState.cp0.entryLo1 &&& 0x3C000000 = 0 ∧
      ∃ t u v, exec .tlbwi roundTripState = .next t ∧ u.cp0.index = t.cp0.index ∧ u.tlb = t.tlb ∧
        u.cp0.entryHi = 0 ∧ exec .tlbr u = .next v :=
  ⟨roundTripState_inv, by decide, by decide, by decide, by decide, _,
    ((roundTripState.setTlb (roundTripState.tlb.set 3 roundTripState.cp0.toEntry)).setCp0 { roundTripState.cp0 with entryHi := 0 }),
    _, rfl, rfl, rfl, rfl, rfl⟩

theorem witness_RandomTlbWrite :
    small.cp0.Inv small.cfg ∧ small.tlb.length = small.cfg.tlbSize ∧ small.cfg.tlbSize ≤ 64 :=
  ⟨small_inv.cp0_inv, by decide, by decide⟩

end Sys2Proof.Tests
end

section
/-! The state family (10_state.md): what an answer satisfies, and how each operation of the state keeps the invariants. -/

namespace Sys2Proof.Machine

variable {s t : State} {P : State → Prop}

/-! ### Answers -/

/-- Every next state the answer can be satisfies `P`; a fault or a refusal satisfies it vacuously. -/
def NextSat (P : State → Prop) (r : Result) : Prop := ∀ t, r = .next t → P t

theorem nextSat_next (h : P t) : NextSat P (.next t) := fun _ e => Host.Outcome.next.inj e ▸ h

theorem nextSat_delayTo {T : Word}
    (h : s.inDelay = false → P { s with branchTarget := T, pc := s.pc + 4, inDelay := true }) :
    NextSat P (s.delayTo T) := fun _ e =>
  let ⟨hd, ht⟩ := delayTo_cases e
  ht ▸ h hd

theorem nextSat_goTo {T : Word} (h : P { s with pc := T, inDelay := false }) : NextSat P (s.goTo T) :=
  fun _ e => (goTo_cases e).2 ▸ h

theorem nextSat_run (h : P { s with running := true }) : NextSat P s.run := by
  unfold State.run
  split
  · exact fun _ e => nomatch e
  · exact nextSat_next h

theorem nextSat_loadImage {base : Nat} {image : List Byte}
    (h : base + image.length ≤ s.cfg.memSize →
      P { s.setMem (s.mem.writeImage base image) with pc := s.cfg.entryPc }) :
    NextSat P (s.loadImage base image) := by
  unfold State.loadImage
  split
  · exact fun _ e => nomatch e
  · split
    · rename_i hfit
      exact nextSat_next (h hfit)
    · exact fun _ e => nomatch e

/-- What a step that answers a next state has done: nothing (a stopped core), a failed fetch, an exception taken after
the tick (an interrupt or RI), or an instruction executed after the tick. -/
theorem step_next_cases (h : step s = .next t) :
    (s.running = false ∧ t = s) ∨ t = s.addressError .adel s.pc ∨ (∃ e, t = s.tick.raise e) ∨
      ∃ w i, s.front = .ready w s.tick ∧ decodeWord w = .ok i ∧ exec i s.tick = .next t := by
  rcases step_cases s with ⟨hr, e⟩ | ⟨-, -, e⟩ | ⟨w, -, -, -, e⟩ | ⟨w, x, -, -, -, e⟩ | ⟨w, i, -, hf, hd, e⟩ <;>
    rw [h] at e
  · exact .inl ⟨hr, Host.Outcome.next.inj e⟩
  · exact .inr (.inl (Host.Outcome.next.inj e))
  · exact .inr (.inr (.inl ⟨_, Host.Outcome.next.inj e⟩))
  · exact .inr (.inr (.inl ⟨_, Host.Outcome.next.inj e⟩))
  · exact .inr (.inr (.inr ⟨w, i, hf, hd, e.symm⟩))

/-! ### The operations of the state keep the invariants (10_state.md R70) -/

theorem Inv.setCp0 (h : Inv s) {c : Cp0} (hc : c.Inv s.cfg) : Inv (s.setCp0 c) :=
  ⟨h.cfg_wf, h.gpr_zero, hc, h.tlb_length, h.mem_wf, h.mem_within⟩

theorem Inv.setMem (h : Inv s) {m : Memory} (hw : m.wf) (hb : m.within s.cfg.memSize) : Inv (s.setMem m) :=
  ⟨h.cfg_wf, h.gpr_zero, h.cp0_inv, h.tlb_length, hw, hb⟩

theorem Inv.setMem_stored (h : Inv s) {m : Memory} (hm : StoredMem s m) : Inv (s.setMem m) :=
  h.setMem (hm.wf h.mem_wf) (hm.within h.mem_within)

theorem Inv.setTlb_set (h : Inv s) (n : Nat) (e : TlbEntry) : Inv (s.setTlb (s.tlb.set n e)) :=
  ⟨h.cfg_wf, h.gpr_zero, h.cp0_inv, List.length_set.trans h.tlb_length, h.mem_wf, h.mem_within⟩

theorem Inv.writeGpr (h : Inv s) (n : Nat) (v : Word) : Inv (s.writeGpr n v) :=
  ⟨h.cfg_wf, (s.writeGpr_slot_zero n v).trans h.gpr_zero, h.cp0_inv, h.tlb_length, h.mem_wf, h.mem_within⟩

/-- HI, LO, PC, in_delay, branch_target and running are in no invariant. -/
theorem Inv.control (h : Inv s) (hi lo pc target : Word) (delay running : Bool) :
    Inv { s with hi := hi, lo := lo, pc := pc, branchTarget := target, inDelay := delay, running := running } :=
  ⟨h.cfg_wf, h.gpr_zero, h.cp0_inv, h.tlb_length, h.mem_wf, h.mem_within⟩

theorem Inv.retire (h : Inv s) : Inv s.retire := h.control _ _ _ _ _ _

theorem Inv.raise (h : Inv s) (e : ExcCode) : Inv (s.raise e) :=
  (h.setCp0 (h.cp0_inv.raise e s.pc s.inDelay)).control _ _ _ _ _ _

theorem Inv.setBadVAddr (h : Inv s) (a : Word) : Inv (s.setBadVAddr a) := h.setCp0 (h.cp0_inv.badVAddr a)

theorem Inv.addressError (h : Inv s) (e : ExcCode) (a : Word) : Inv (s.addressError e a) := (h.setBadVAddr a).raise e

theorem Inv.tick (h : Inv s) : Inv s.tick := h.setCp0 (h.cp0_inv.tick.randomStep h.cfg_wf)

/-- TLBP writes an Index the invariants allow, the array having TLB_SIZE entries. -/
theorem Inv.probe (h : Inv s) : Inv (s.setCp0 { s.cp0 with index := probeResult s.tlb s.cp0 }) := by
  obtain ⟨hlt, hz⟩ := probeResult_index s.tlb s.cp0 s.cfg.tlbSize h.tlb_length h.cfg_wf.1 h.cfg_wf.2.1
  exact h.setCp0 (h.cp0_inv.index _ hlt hz)

/-! ### Instructions, steps and host actions keep the invariants -/

theorem Ends.inv {i : Instr} {r : Result} (hr : Ends i s r) (h : Inv s) : NextSat Inv r := by
  cases hr with
  | finish n v => exact nextSat_next (h.writeGpr n v).retire
  | retire => exact nextSat_next h.retire
  | hiLo => exact nextSat_next (h.control _ _ _ _ _ _)
  | raise e => exact nextSat_next (h.raise e)
  | addressError e a => exact nextSat_next (h.addressError e a)
  | store m hm => exact nextSat_next (h.setMem_stored hm).retire
  | storeWrite m hm _ n v => exact nextSat_next ((h.setMem_stored hm).writeGpr n v).retire
  | delay => exact nextSat_delayTo fun _ => h.control _ _ _ _ _ _
  | linkDelay n => exact nextSat_delayTo fun _ => (h.writeGpr n _).control _ _ _ _ _ _
  | linkRetire n => exact nextSat_next (h.writeGpr n _).retire
  | mtc0 rt reg sel => exact nextSat_next (h.setCp0 (h.cp0_inv.write h.cfg_wf reg sel _)).retire
  | eret => exact nextSat_goTo ((h.setCp0 h.cp0_inv.eret).control _ _ _ _ _ _)
  | tlbp => exact nextSat_next h.probe.retire
  | tlbr => exact nextSat_next (h.setCp0 (h.cp0_inv.fromEntry _)).retire
  | tlbwi => exact nextSat_next (h.setTlb_set _ _).retire
  | tlbwr => exact nextSat_next ((h.setTlb_set _ _).setCp0 (h.cp0_inv.randomStep h.cfg_wf)).retire

/-- Settles O17: a step raises, or ticks and then executes an instruction, and each operation of `Ends` keeps `Inv`. -/
theorem everyStepKeepsTheInvariants : Obligations.EveryStepKeepsTheInvariants := by
  intro s t hs h
  rcases step_next_cases h with ⟨-, rfl⟩ | rfl | ⟨e, rfl⟩ | ⟨w, i, -, -, he⟩
  · exact hs
  · exact hs.addressError _ _
  · exact hs.tick.raise e
  · exact (exec_ends i s.tick).inv hs.tick t he

/-- A line sets one of the bits IP0 to IP6 of Cause, none of which must read 0. -/
theorem Cp0.Inv.ipLine {p : Config} {c : Cp0} (h : c.Inv p) (n : Fin 7) (b : Bool) :
    Cp0.Inv p { c with cause := setBit c.cause (8 + n.val) b } :=
  h.setCauseBit _ b (by omega) (by revert n; decide)

theorem act_inv (a : HostAction) (h : Inv s) : NextSat Inv (act a s) := by
  cases a with
  | load base image =>
    exact nextSat_loadImage fun hfit =>
      (h.setMem (Memory.wf_writeImage h.mem_wf base image) (Memory.within_writeImage h.mem_within hfit)).control
        _ _ _ _ _ _
  | run => exact nextSat_run (h.control _ _ _ _ _ _)
  | stop => exact nextSat_next (h.control _ _ _ _ _ _)
  | setReg n v => exact nextSat_next (h.writeGpr n v)
  | setCp0 reg sel v => exact nextSat_next (h.setCp0 (h.cp0_inv.write h.cfg_wf reg sel v))
  | setBadVaddr v => exact nextSat_next (h.setBadVAddr v)
  | setIpLine n level => exact nextSat_next (h.setCp0 (h.cp0_inv.ipLine n level))

/-- Settles O18, action by action. -/
theorem everyHostActionKeepsTheInvariants : Obligations.EveryHostActionKeepsTheInvariants :=
  fun a _ t hs h => act_inv a hs t h

/-! ### Reset and the reachable states -/

theorem Cp0.inv_reset {c : Config} (h : c.wf) : (Cp0.reset c).Inv c := by
  obtain ⟨h1, h64, -⟩ := h
  have hrandom : (Cp0.reset c).random.toNat = c.tlbSize - 1 := by
    show (BitVec.ofNat 32 (c.tlbSize - 1)).toNat = _
    rw [BitVec.toNat_ofNat, Nat.mod_eq_of_lt (by omega)]
  exact {
    wired_le_random := Nat.zero_le _
    random_lt := by omega
    index_lt := h1
    wired_lt := h1
    index_zeros := BitVec.zero_and
    entryLo0_zeros := BitVec.zero_and
    entryLo1_zeros := BitVec.zero_and
    pageMask_zeros := BitVec.zero_and
    entryHi_zeros := BitVec.zero_and
    cause_zeros := BitVec.zero_and
    prid_const := rfl
    config0_const := rfl
    config1_const := rfl }

theorem Memory.within_newCpu {c : Config} (h : c.wf) : (State.newCpu c).mem.within c.memSize := by
  obtain ⟨-, -, -, -, -, hwithin⟩ := h
  exact hwithin

theorem inv_newCpu {c : Config} (h : c.wf) : Inv (State.newCpu c) where
  cfg_wf := h
  gpr_zero := rfl
  cp0_inv := Cp0.inv_reset h
  tlb_length := List.length_replicate
  mem_wf := Memory.wf_newCpu h
  mem_within := Memory.within_newCpu h

/-- Settles O16; `State.reset` is the machine with the default parameters, which are in their ranges. -/
theorem resetSatisfiesTheInvariants : Obligations.ResetSatisfiesTheInvariants :=
  ⟨fun _ => inv_newCpu, inv_newCpu (by decide)⟩

/-- Settles O19, by induction on the run: O16 at reset, O17 for a step, O18 for a host action. -/
theorem reachableStatesSatisfyTheInvariants : Obligations.ReachableStatesSatisfyTheInvariants := by
  intro s hs
  induction hs with
  | reset c h => exact resetSatisfiesTheInvariants.1 c h
  | step _ h ih => exact everyStepKeepsTheInvariants _ _ ih h
  | act a _ h ih => exact everyHostActionKeepsTheInvariants a _ _ ih h

/-! ### in_delay (10_state.md R25) -/

/-- Only the outcome `delayed(T)` sets in_delay: a jump's or branch's, outside a slot, with PC moved to the slot. -/
theorem Ends.inDelay {i : Instr} {r : Result} (hr : Ends i s r) :
    NextSat (fun t => t.inDelay = true → s.inDelay = false ∧ t.pc = s.pc + 4 ∧ isJumpOrBranch i = true) r := by
  cases hr with
  | delay _ hi => exact nextSat_delayTo fun hd _ => ⟨hd, rfl, hi⟩
  | linkDelay _ _ hi => exact nextSat_delayTo fun hd _ => ⟨hd, rfl, hi⟩
  | eret => exact nextSat_goTo fun h => nomatch h
  | _ => exact nextSat_next fun h => nomatch h

/-- Settles O20: an exception clears in_delay, so the step executed an instruction, and `Ends.inDelay` says which. -/
theorem inDelayOnlyAfterAJumpOrTakenBranch : Obligations.InDelayOnlyAfterAJumpOrTakenBranch := by
  intro s t hrun h hd
  rcases step_next_cases h with ⟨hstop, -⟩ | rfl | ⟨e, rfl⟩ | ⟨w, i, hf, hdec, he⟩
  · exact absurd hrun (by simp [hstop])
  · exact nomatch hd
  · exact nomatch hd
  · obtain ⟨hslot, hpc, hi⟩ := (exec_ends i s.tick).inDelay t he hd
    exact ⟨hslot, hpc, w, s.tick, i, hf, hdec, hi⟩

end Sys2Proof.Machine
end

section
/-! What the hardware and MTC0 can change in CP0 (10_state.md R33, R45, R48, R50, R51). -/

namespace Sys2Proof.Machine

variable {s t : State}

/-! ### Changes the hardware makes to CP0 -/

/-- The registers with no hardware writer (10_state.md R33), and the read-only PRId and Config1; the others set to 0. -/
def Cp0.software (c : Cp0) : Cp0 :=
  { c with index := 0, random := 0, entryLo0 := 0, entryLo1 := 0, pageMask := 0, badVAddr := 0, count := 0,
           entryHi := 0, status := 0, cause := 0, epc := 0 }

/-- `d` comes from `c` by hardware writes: no register without a hardware writer has changed (R33), and Status.ERL has
not risen (R45). -/
structure Cp0.ByHardware (c d : Cp0) : Prop where
  software : d.software = c.software
  erl : d.erl = true → c.erl = true

theorem Cp0.ByHardware.refl (c : Cp0) : c.ByHardware c := ⟨rfl, id⟩

theorem Cp0.ByHardware.trans {a b c : Cp0} (h : a.ByHardware b) (k : b.ByHardware c) : a.ByHardware c :=
  ⟨k.software.trans h.software, h.erl ∘ k.erl⟩

theorem Cp0.byHardware_badVAddr (c : Cp0) (a : Word) : c.ByHardware { c with badVAddr := a } := ⟨rfl, id⟩

theorem Cp0.byHardware_index (c : Cp0) (w : Word) : c.ByHardware { c with index := w } := ⟨rfl, id⟩

theorem Cp0.byHardware_fromEntry (c : Cp0) (e : TlbEntry) : c.ByHardware (c.fromEntry e) := ⟨rfl, id⟩

theorem Cp0.byHardware_randomStep (c : Cp0) (n : Nat) : c.ByHardware (c.randomStep n) := ⟨rfl, id⟩

theorem Cp0.byHardware_tick (c : Cp0) : c.ByHardware c.tick := by
  unfold Cp0.tick
  split <;> exact ⟨rfl, id⟩

/-- The raise sets Status.EXL and no other bit of Status. -/
theorem Cp0.byHardware_raise (c : Cp0) (e : ExcCode) (pc : Word) (d : Bool) : c.ByHardware (c.raise e pc d) :=
  ⟨rfl, fun h => by simpa [Cp0.erl, Cp0.raise_status, -BitVec.getLsbD_eq_getElem] using h⟩

/-- ERET clears bits of Status and sets none. -/
theorem Cp0.byHardware_eret (c : Cp0) : c.ByHardware c.eret := by
  refine ⟨?_, fun h => ?_⟩
  · unfold Cp0.eret
    split <;> rfl
  · rw [Cp0.erl, Cp0.eret_status] at h
    split at h
    · exact absurd h (by simp)
    · exact h

theorem State.byHardware_raise (s : State) (e : ExcCode) : s.cp0.ByHardware (s.raise e).cp0 :=
  Cp0.byHardware_raise _ _ _ _

theorem State.byHardware_addressError (s : State) (e : ExcCode) (a : Word) :
    s.cp0.ByHardware (s.addressError e a).cp0 :=
  (s.cp0.byHardware_badVAddr a).trans (Cp0.byHardware_raise _ _ _ _)

theorem State.byHardware_tick (s : State) : s.cp0.ByHardware s.tick.cp0 :=
  s.cp0.byHardware_tick.trans (Cp0.byHardware_randomStep _ _)

/-! ### What an instruction and a step do to CP0 -/

/-- An instruction changes CP0 as the hardware does, unless it is MTC0, which performs its one `CP0Write`. -/
theorem Ends.cp0 {i : Instr} {r : Result} (hr : Ends i s r) :
    NextSat (fun t => t.cfg = s.cfg ∧ (s.cp0.ByHardware t.cp0 ∨
      ∃ rt reg sel, i = .mtc0 rt reg sel ∧ t.cp0 = s.cp0.write s.cfg.tlbSize reg sel (s.readGpr rt))) r := by
  cases hr with
  | raise e => exact nextSat_next ⟨rfl, .inl (s.byHardware_raise e)⟩
  | addressError e a => exact nextSat_next ⟨rfl, .inl (s.byHardware_addressError e a)⟩
  | mtc0 rt reg sel hi => exact nextSat_next ⟨rfl, .inr ⟨rt, reg, sel, hi, rfl⟩⟩
  | eret => exact nextSat_goTo ⟨rfl, .inl s.cp0.byHardware_eret⟩
  | tlbp => exact nextSat_next ⟨rfl, .inl (s.cp0.byHardware_index _)⟩
  | tlbr => exact nextSat_next ⟨rfl, .inl (s.cp0.byHardware_fromEntry _)⟩
  | tlbwr => exact nextSat_next ⟨rfl, .inl (s.cp0.byHardware_randomStep _)⟩
  | delay | linkDelay => exact nextSat_delayTo fun _ => ⟨rfl, .inl (.refl _)⟩
  | _ => exact nextSat_next ⟨rfl, .inl (.refl _)⟩

/-- A step keeps the parameters, and changes CP0 as the hardware does, but for the `CP0Write` of an MTC0 it executes
after the tick. -/
theorem step_cp0 (h : step s = .next t) :
    t.cfg = s.cfg ∧ (s.cp0.ByHardware t.cp0 ∨
      ∃ w rt reg sel v, s.front = .ready w s.tick ∧ decodeWord w = .ok (.mtc0 rt reg sel) ∧
        t.cp0 = s.tick.cp0.write s.cfg.tlbSize reg sel v) := by
  rcases step_next_cases h with ⟨-, rfl⟩ | rfl | ⟨e, rfl⟩ | ⟨w, i, hf, hd, he⟩
  · exact ⟨rfl, .inl (.refl _)⟩
  · exact ⟨rfl, .inl (s.byHardware_addressError _ _)⟩
  · exact ⟨rfl, .inl (s.byHardware_tick.trans (s.tick.byHardware_raise e))⟩
  · obtain ⟨hcfg, hhw | ⟨rt, reg, sel, rfl, hw⟩⟩ := (exec_ends i s.tick).cp0 t he
    · exact ⟨hcfg, .inl (s.byHardware_tick.trans hhw)⟩
    · exact ⟨hcfg, .inr ⟨w, rt, reg, sel, _, hf, hd, hw⟩⟩

/-! ### Read-only registers and bits (10_state.md R48, R50, R51) -/

/-- PRId, Config1 and bits 31:3 of Config0 are the same in `d` as in `c`. -/
def Cp0.SameReadOnly (c d : Cp0) : Prop :=
  d.prid = c.prid ∧ d.config1 = c.config1 ∧ ∀ j, 3 ≤ j → d.config0.getLsbD j = c.config0.getLsbD j

theorem Cp0.SameReadOnly.refl (c : Cp0) : c.SameReadOnly c := ⟨rfl, rfl, fun _ _ => rfl⟩

theorem Cp0.SameReadOnly.trans {a b c : Cp0} (h : a.SameReadOnly b) (k : b.SameReadOnly c) : a.SameReadOnly c := by
  obtain ⟨hprid, hconfig1, hconfig0⟩ := h
  obtain ⟨kprid, kconfig1, kconfig0⟩ := k
  exact ⟨kprid.trans hprid, kconfig1.trans hconfig1, fun j hj => (kconfig0 j hj).trans (hconfig0 j hj)⟩

theorem Cp0.ByHardware.sameReadOnly {c d : Cp0} (h : c.ByHardware d) : c.SameReadOnly d := by
  have hprid : d.prid = c.prid := (congrArg Cp0.prid h.software :)
  have hconfig1 : d.config1 = c.config1 := (congrArg Cp0.config1 h.software :)
  have hconfig0 : d.config0 = c.config0 := (congrArg Cp0.config0 h.software :)
  exact ⟨hprid, hconfig1, fun j _ => by rw [hconfig0]⟩

/-- Config0's mask of writable bits is K0, bits 2:0. -/
theorem getLsbD_k0_mask {j : Nat} (hj : 3 ≤ j) : (0x00000007 : Word).getLsbD j = false :=
  Nat.testBit_lt_two_pow (Nat.lt_of_lt_of_le (by decide : 7 < 2 ^ 3) (Nat.pow_le_pow_right (by decide) hj))

theorem Cp0.sameReadOnly_write (c : Cp0) (n reg sel : Nat) (v : Word) : c.SameReadOnly (c.write n reg sel v) := by
  unfold Cp0.write
  split
  case h_14 => -- Config0
    exact ⟨rfl, rfl, fun j hj => by rw [getLsbD_maskWrite, getLsbD_k0_mask hj]; rfl⟩
  all_goals exact ⟨rfl, rfl, fun _ _ => rfl⟩

theorem step_sameReadOnly (h : step s = .next t) : t.cfg = s.cfg ∧ s.cp0.SameReadOnly t.cp0 := by
  obtain ⟨hcfg, hhw | ⟨w, rt, reg, sel, v, -, -, hw⟩⟩ := step_cp0 h
  · exact ⟨hcfg, hhw.sameReadOnly⟩
  · exact ⟨hcfg, hw ▸ s.byHardware_tick.sameReadOnly.trans (Cp0.sameReadOnly_write _ _ _ _ _)⟩

theorem act_sameReadOnly (a : HostAction) (s : State) :
    NextSat (fun t => t.cfg = s.cfg ∧ s.cp0.SameReadOnly t.cp0) (act a s) := by
  cases a with
  | load => exact nextSat_loadImage fun _ => ⟨rfl, .refl _⟩
  | run => exact nextSat_run ⟨rfl, .refl _⟩
  | setCp0 reg sel v => exact nextSat_next ⟨rfl, s.cp0.sameReadOnly_write _ reg sel v⟩
  | _ => exact nextSat_next ⟨rfl, .refl _⟩

/-- Settles O22: hardware writes none of these, and `CP0Write` discards a write to each. -/
theorem readOnlyRegistersAndParametersNeverChange : Obligations.ReadOnlyRegistersAndParametersNeverChange :=
  ⟨fun _ _ h => step_sameReadOnly h, fun a s t h => act_sameReadOnly a s t h⟩

/-! ### Registers only MTC0 writes (10_state.md R33) -/

/-- The writable registers with no hardware writer, by number and `sel` (R33). -/
def softwareRegs : List (Nat × Nat) :=
  [(4, 0), (6, 0), (11, 0), (15, 1), (16, 0), (17, 0), (18, 0), (19, 0), (20, 0), (30, 0)]

theorem Cp0.read_software (c : Cp0) {p : Nat × Nat} (h : p ∈ softwareRegs) :
    c.software.read p.1 p.2 = c.read p.1 p.2 := by
  fin_cases h <;> rfl

theorem Cp0.ByHardware.read {c d : Cp0} (h : c.ByHardware d) {p : Nat × Nat} (hm : p ∈ softwareRegs) :
    d.read p.1 p.2 = c.read p.1 p.2 := by
  rw [← d.read_software hm, h.software, c.read_software hm]

/-- `CP0Write` of one register changes no other register of `softwareRegs`, nor Status: its side effects are on Random
and Cause (47_cop0.md R342). In each row of the write, a register is untouched or it is the row's own. -/
theorem Cp0.read_write_of_ne (c : Cp0) (n reg sel : Nat) (v : Word) {p : Nat × Nat}
    (hm : p ∈ (12, 0) :: softwareRegs) (hne : p ≠ (reg, sel)) :
    (c.write n reg sel v).read p.1 p.2 = c.read p.1 p.2 := by
  unfold Cp0.write
  split
  all_goals fin_cases hm <;> first | rfl | exact absurd rfl hne

/-- A step that changes a register of `softwareRegs` executed an MTC0 of it. -/
theorem mtc0_of_read_ne (h : step s = .next t) {reg sel : Nat} (hm : (reg, sel) ∈ softwareRegs)
    (hne : t.cp0.read reg sel ≠ s.cp0.read reg sel) :
    ∃ w u rt, s.front = .ready w u ∧ decodeWord w = .ok (.mtc0 rt reg sel) := by
  obtain ⟨-, hhw | ⟨w, rt, reg', sel', v, hf, hd, hw⟩⟩ := step_cp0 h
  · exact absurd (hhw.read hm) hne
  · by_cases hp : (reg, sel) = (reg', sel')
    · obtain ⟨rfl, rfl⟩ := Prod.mk.inj hp
      exact ⟨w, s.tick, rt, hf, hd⟩
    · have hwrite : t.cp0.read reg sel = s.tick.cp0.read reg sel :=
        hw ▸ Cp0.read_write_of_ne _ _ _ _ _ (List.mem_cons_of_mem _ hm) hp
      exact absurd (hwrite.trans (s.byHardware_tick.read hm)) hne

/-- A step that sets Status.ERL executed an MTC0 of Status. -/
theorem mtc0_of_erl_set (h : step s = .next t) (h0 : s.cp0.erl = false) (h1 : t.cp0.erl = true) :
    ∃ w u rt, s.front = .ready w u ∧ decodeWord w = .ok (.mtc0 rt 12 0) := by
  obtain ⟨-, hhw | ⟨w, rt, reg, sel, v, hf, hd, hw⟩⟩ := step_cp0 h
  · exact absurd (hhw.erl h1) (by simp [h0])
  · by_cases hp : (12, 0) = (reg, sel)
    · obtain ⟨rfl, rfl⟩ := Prod.mk.inj hp
      exact ⟨w, s.tick, rt, hf, hd⟩
    · have hstatus : t.cp0.status = s.tick.cp0.status :=
        hw ▸ Cp0.read_write_of_ne _ _ _ _ _ List.mem_cons_self hp
      have htick : s.tick.cp0.erl = true := by rw [Cp0.erl, ← hstatus]; exact h1
      exact absurd (s.byHardware_tick.erl htick) (by simp [h0])

/-- Settles O23: the hardware writes none of these registers, and MTC0 writes the one it names. -/
theorem softwareRegistersChangeOnlyByMtc0 : Obligations.SoftwareRegistersChangeOnlyByMtc0 :=
  fun _ _ h => ⟨fun _ _ hm hne => mtc0_of_read_ne h hm hne, mtc0_of_erl_set h⟩

end Sys2Proof.Machine
end

section
/-! An instruction other than the four TLB ones does the same with any TLB array (10_state.md R63, 20_memory.md R95). -/

namespace Sys2Proof.Machine

variable (s : State) (o : List TlbEntry)

/-- The answer with the array `o` in its next state. -/
def withTlb (o : List TlbEntry) : Result → Result
  | .next t => .next (t.setTlb o)
  | .fault r => .fault r
  | .refused r => .refused r

/-! ### The shared operations, in a state with another array -/

@[simp] theorem State.setTlb_effAddr (base : Nat) (off : BitVec 16) :
    (s.setTlb o).effAddr base off = s.effAddr base off := rfl

theorem trapIf_setTlb (b : Bool) : (s.setTlb o).trapIf b = withTlb o (s.trapIf b) := by
  cases b <;> rfl

theorem delayTo_setTlb (T : Word) : (s.setTlb o).delayTo T = withTlb o (s.delayTo T) := by
  simp only [State.delayTo, apply_ite (withTlb o)]
  rfl

theorem goTo_setTlb (T : Word) : (s.setTlb o).goTo T = withTlb o (s.goTo T) := by
  simp only [State.goTo, apply_ite (withTlb o)]
  rfl

theorem branchIf_setTlb (b : Bool) (off : BitVec 16) : (s.setTlb o).branchIf b off = withTlb o (s.branchIf b off) := by
  cases b
  · rfl
  · exact delayTo_setTlb s o _

theorem finishLoad_setTlb (rt : Nat) (a : Word) (v : Option Word) :
    (s.setTlb o).finishLoad rt a v = withTlb o (s.finishLoad rt a v) := by
  cases v <;> rfl

theorem finishStore_setTlb (a : Word) (u : Option State) :
    (s.setTlb o).finishStore a (u.map (·.setTlb o)) = withTlb o (s.finishStore a u) := by
  cases u <;> rfl

theorem store8_setTlb (a : Word) (v : Byte) : (s.setTlb o).store8 a v = (s.store8 a v).map (·.setTlb o) := by
  simp only [State.store8, apply_ite (Option.map _)]
  rfl

theorem store16_setTlb (a : Word) (v : Half) : (s.setTlb o).store16 a v = (s.store16 a v).map (·.setTlb o) := by
  simp only [State.store16, apply_ite (Option.map _)]
  rfl

theorem store32_setTlb (a : Word) (v : Word) : (s.setTlb o).store32 a v = (s.store32 a v).map (·.setTlb o) := by
  simp only [State.store32, apply_ite (Option.map _)]
  rfl

/-! ### The instructions -/

/-- Executing in a state with another TLB array is executing, and then putting that array in place. -/
theorem exec_setTlb {i : Instr} (hi : i ∉ [Instr.tlbp, .tlbr, .tlbwi, .tlbwr]) :
    exec i (s.setTlb o) = withTlb o (exec i s) := by
  cases i
  case tlbp | tlbr | tlbwi | tlbwr => exact absurd (by simp) hi
  case add | sub | addi | movn | movz | div | divu =>
    simp only [exec, execAdd, execSub, execAddi, execMovn, execMovz, execDiv, execDivu, apply_ite (withTlb o)]
    rfl
  case teq | tne | tge | tgeu | tlt | tltu => exact trapIf_setTlb s o _
  case lw | lh | lhu | lb | lbu | ll => exact finishLoad_setTlb s o _ _ _
  case lwl | lwr =>
    simp only [exec, execLwl, execLwr, State.setTlb_cfg]
    split
    · rfl
    · exact finishLoad_setTlb s o _ _ _
  case sb | sh | sw =>
    simp only [exec, execSb, execSh, execSw, State.setTlb_effAddr, State.setTlb_readGpr, store8_setTlb, store16_setTlb,
      store32_setTlb, finishStore_setTlb]
  case swl | swr =>
    simp only [exec, execSwl, execSwr, State.setTlb_cfg]
    split
    · rfl
    · simp only [State.setTlb_effAddr, State.setTlb_readGpr, State.setTlb_mem, store32_setTlb, finishStore_setTlb]
  case sc rt base off =>
    simp only [exec, execSc, State.setTlb_effAddr, State.setTlb_readGpr, store32_setTlb]
    cases s.store32 (s.effAddr base off) (s.readGpr rt) <;> rfl
  case beq | bne | blez | bgtz | bltz | bgez => exact branchIf_setTlb s o _ _
  case bltzal | bgezal => exact branchIf_setTlb (s.writeGpr 31 (linkOf s.pc)) o _ _
  case j | jr => exact delayTo_setTlb s o _
  case jal => exact delayTo_setTlb (s.writeGpr 31 (linkOf s.pc)) o _
  case jalr rd rs => exact delayTo_setTlb (s.writeGpr rd (linkOf s.pc)) o _
  case eret => exact goTo_setTlb (s.setCp0 s.cp0.eret) o _
  all_goals rfl

/-- An instruction other than the TLB ones keeps the array: put in place of itself, it is the next state's. -/
theorem exec_keeps_tlb {s t : State} {i : Instr} (hi : i ∉ [Instr.tlbp, .tlbr, .tlbwi, .tlbwr])
    (h : exec i s = .next t) : t.tlb = s.tlb := by
  have hown : exec i s = withTlb s.tlb (exec i s) := exec_setTlb s s.tlb hi
  rw [h] at hown
  exact (congrArg State.tlb (Host.Outcome.next.inj hown) :)

/-- Settles O25: by `exec_setTlb` the array has no part in what the instruction answers. -/
theorem onlyTlbInstructionsUseTheTlb : Obligations.OnlyTlbInstructionsUseTheTlb := by
  intro i s other hi
  have hother := exec_setTlb s other hi
  exact ⟨fun t h => ⟨exec_keeps_tlb hi h, by rw [hother, h, withTlb]⟩, fun r h => by rw [hother, h, withTlb]⟩

end Sys2Proof.Machine
end

section
/-! The memory family (20_memory.md): which instructions change a byte, and that a store is read back. -/

namespace Sys2Proof.Machine

variable {s t : State}

/-! ### Only stores change memory (20_memory.md R81, R86) -/

/-- An instruction that is no store ends with the memory it began with: of the ways an instruction can end, only the two
that only a store reaches replace the memory. -/
theorem Ends.mem_of_not_isStore {i : Instr} {r : Result} (hr : Ends i s r) (hi : isStore i = false) :
    NextSat (fun t => t.mem = s.mem) r := by
  cases hr with
  | store _ _ hstore | storeWrite _ _ hstore => exact absurd hstore (by simp [hi])
  | delay | linkDelay => exact nextSat_delayTo fun _ => rfl
  | eret => exact nextSat_goTo rfl
  | _ => exact nextSat_next rfl

/-- A step that ends with another memory executed a store. -/
theorem store_of_mem_ne (h : step s = .next t) (hne : t.mem ≠ s.mem) :
    ∃ w u i, s.front = .ready w u ∧ decodeWord w = .ok i ∧ isStore i = true := by
  rcases step_next_cases h with ⟨-, rfl⟩ | rfl | ⟨e, rfl⟩ | ⟨w, i, hf, hd, he⟩
  · exact absurd rfl hne
  · exact absurd rfl hne
  · exact absurd rfl hne
  · refine ⟨w, s.tick, i, hf, hd, ?_⟩
    by_contra hi
    exact hne ((exec_ends i s.tick).mem_of_not_isStore (Bool.eq_false_of_not_eq_true hi) t he)

/-- Settles O24: a byte that reads differently lies in another memory, which only a store leaves. -/
theorem onlyStoresChangeMemory : Obligations.OnlyStoresChangeMemory :=
  fun _ _ a h hne => store_of_mem_ne h fun hmem => hne (congrArg (Memory.read · a) hmem)

/-! ### A store is read back, big-endian (20_memory.md R82 to R87) -/

/-- Byte `k` of a halfword written, the most significant first (R83). -/
theorem Memory.read_writeHalf_byte {m : Memory} (h : m.wf) (a : Nat) (v : Half) {k : Nat} (hk : k < 2) :
    (m.writeHalf a v).read (a + k) = v.extractLsb' (8 * (1 - k)) 8 := by
  rw [Memory.read_writeHalf h]
  interval_cases k <;> simp

/-- Byte `k` of a word written, the most significant first (R82). -/
theorem Memory.read_writeWord_byte {m : Memory} (h : m.wf) (a : Nat) (v : Word) {k : Nat} (hk : k < 4) :
    (m.writeWord a v).read (a + k) = v.extractLsb' (8 * (3 - k)) 8 := by
  rw [Memory.read_writeWord h]
  interval_cases k <;> simp

/-- An admitted word store (R84, R87): the load gives the value, its bytes are big-endian, and no other byte changes. -/
theorem store32_spec {a : Word} (hm : s.mem.wf) (v : Word) (ha : s.admits a 4) :
    ∃ t, s.store32 a v = some t ∧ t.load32 a = some v ∧ KeepsMemOutside a.toNat 4 s t ∧
      ∀ k < 4, t.readByte (a.toNat + k) = v.extractLsb' (8 * (3 - k)) 8 :=
  ⟨_, store32_admits v ha, (if_pos ha).trans (congrArg some (Memory.readWord_writeWord hm _ v)),
    fun _ hb => Memory.read_writeWord_outside _ v hb, fun _ hk => Memory.read_writeWord_byte hm _ v hk⟩

/-- An admitted halfword store (R87), as for a word. -/
theorem store16_spec {a : Word} (hm : s.mem.wf) (v : Half) (ha : s.admits a 2) :
    ∃ t, s.store16 a v = some t ∧ t.load16 a = some v ∧ KeepsMemOutside a.toNat 2 s t ∧
      ∀ k < 2, t.readByte (a.toNat + k) = v.extractLsb' (8 * (1 - k)) 8 :=
  ⟨_, store16_admits v ha, (if_pos ha).trans (congrArg some (Memory.readHalf_writeHalf hm _ v)),
    fun _ hb => Memory.read_writeHalf_outside _ v hb, fun _ hk => Memory.read_writeHalf_byte hm _ v hk⟩

/-- An admitted byte store (R87): the load gives the value, and no other byte changes. -/
theorem store8_spec {a : Word} (hm : s.mem.wf) (v : Byte) (ha : s.admits a 1) :
    ∃ t, s.store8 a v = some t ∧ t.load8 a = some v ∧ KeepsMemOutside a.toNat 1 s t :=
  ⟨_, store8_admits v ha, (if_pos ha).trans (congrArg some (Memory.read_write_self hm _ v)),
    fun _ hb => Memory.read_write_of_ne _ v (by omega)⟩

/-- Settles O43, width by width: the store's rule where the access is admitted, and `none` where it is not. -/
theorem storedValueIsReadBack : Obligations.StoredValueIsReadBack :=
  fun _ _ hm =>
    ⟨fun v ha => store32_spec hm v ha, fun v ha => store16_spec hm v ha, fun v ha => store8_spec hm v ha,
      fun hn => ⟨fun v => store32_not_admits v hn, load32_not_admits hn⟩,
      fun hn => ⟨fun v => store16_not_admits v hn, load16_not_admits hn⟩,
      fun hn => ⟨fun v => store8_not_admits v hn, load8_not_admits hn⟩⟩

end Sys2Proof.Machine
end

section
/-! The encoding family (30_encoding.md): a word decodes to an instruction exactly when the instruction is well-formed and
its encoding is the word cut to the bits of its row and its operands. -/

namespace Sys2Proof

open BitVec Machine

variable {w v m : Word} {i : Instr}

/-! ### Fields (R111 to R115) -/

@[simp] theorem rsOf_lt (w : Word) : rsOf w < 32 := isLt _
@[simp] theorem rtOf_lt (w : Word) : rtOf w < 32 := isLt _
@[simp] theorem rdOf_lt (w : Word) : rdOf w < 32 := isLt _
@[simp] theorem shamtOf_lt (w : Word) : shamtOf w < 32 := isLt _
@[simp] theorem selOf_lt (w : Word) : selOf w < 8 := isLt _

/-- A field of 5 bits under a mask of ones. -/
theorem and_31 {n : Nat} (h : n < 32) : n &&& 31 = n := (Nat.and_two_pow_sub_one_eq_mod n 5).trans (Nat.mod_eq_of_lt h)

/-- `sel` under a mask of ones. -/
theorem and_7 {n : Nat} (h : n < 8) : n &&& 7 = n := (Nat.and_two_pow_sub_one_eq_mod n 3).trans (Nat.mod_eq_of_lt h)

/-- An immediate under a mask of ones. -/
theorem and_ones16 (x : BitVec 16) : x &&& 65535#16 = x := and_allOnes

/-- Masking a word masks each of its fields. -/
theorem fields_and (w m : Word) :
    opOf (w &&& m) = opOf w &&& (m.extractLsb' 26 6).toNat ∧ rsOf (w &&& m) = rsOf w &&& (m.extractLsb' 21 5).toNat ∧
    rtOf (w &&& m) = rtOf w &&& (m.extractLsb' 16 5).toNat ∧ rdOf (w &&& m) = rdOf w &&& (m.extractLsb' 11 5).toNat ∧
    shamtOf (w &&& m) = shamtOf w &&& (m.extractLsb' 6 5).toNat ∧
    functOf (w &&& m) = functOf w &&& (m.extractLsb' 0 6).toNat ∧
    selOf (w &&& m) = selOf w &&& (m.extractLsb' 0 3).toNat ∧ immOf (w &&& m) = immOf w &&& m.extractLsb' 0 16 := by
  refine ⟨?_, ?_, ?_, ?_, ?_, ?_, ?_, extractLsb'_and⟩ <;>
    exact (congrArg BitVec.toNat extractLsb'_and).trans (toNat_and _ _)

/-- Words that agree on a mask agree on every field all of whose bits the mask has. -/
theorem extractLsb'_congr (h : w &&& m = v &&& m) {lo n : Nat} (hm : m.extractLsb' lo n = allOnes n) :
    w.extractLsb' lo n = v.extractLsb' lo n := by
  simpa only [extractLsb'_and, hm, and_allOnes] using congrArg (·.extractLsb' lo n) h

/-- The same, field by field. -/
theorem fields_congr (h : w &&& m = v &&& m) :
    (m.extractLsb' 26 6 = allOnes 6 → opOf w = opOf v) ∧ (m.extractLsb' 21 5 = allOnes 5 → rsOf w = rsOf v) ∧
    (m.extractLsb' 16 5 = allOnes 5 → rtOf w = rtOf v) ∧ (m.extractLsb' 11 5 = allOnes 5 → rdOf w = rdOf v) ∧
    (m.extractLsb' 6 5 = allOnes 5 → shamtOf w = shamtOf v) ∧ (m.extractLsb' 0 6 = allOnes 6 → functOf w = functOf v) ∧
    (m.extractLsb' 0 3 = allOnes 3 → selOf w = selOf v) ∧ (m.extractLsb' 0 16 = allOnes 16 → immOf w = immOf v) ∧
    (m.extractLsb' 0 26 = allOnes 26 → targetOf w = targetOf v) ∧
    (m.extractLsb' 6 20 = allOnes 20 → sysCodeOf w = sysCodeOf v) ∧
    (m.extractLsb' 6 10 = allOnes 10 → trapCodeOf w = trapCodeOf v) := by
  refine ⟨?_, ?_, ?_, ?_, ?_, ?_, ?_, extractLsb'_congr h, extractLsb'_congr h, extractLsb'_congr h, extractLsb'_congr h⟩ <;>
    exact fun hm => congrArg BitVec.toNat (extractLsb'_congr h hm)

/-! ### A word is the encoding of its fields -/

theorem encodeR_self (h : opOf w = 0) : encodeR (rsOf w) (rtOf w) (rdOf w) (shamtOf w) (functOf w) = w := by
  have h0 : w.extractLsb' 26 6 = 0#6 := toNat_inj.1 h
  simp only [encodeR, rsOf, rtOf, rdOf, shamtOf, functOf, ofNat_toNat, setWidth_eq, ← h0]
  simp (disch := decide) only [extractLsb'_append_extractLsb'_eq_extractLsb']
  exact extractLsb'_eq_self

theorem encodeI_self (w : Word) : encodeI (opOf w) (rsOf w) (rtOf w) (immOf w) = w := by
  simp only [encodeI, opOf, rsOf, rtOf, immOf, ofNat_toNat, setWidth_eq]
  simp (disch := decide) only [extractLsb'_append_extractLsb'_eq_extractLsb']
  exact extractLsb'_eq_self

theorem encodeMoveC0_self (h : opOf w = 0x10) (hz : w.extractLsb' 3 8 = 0#8) :
    encodeMoveC0 (rsOf w) (rtOf w) (rdOf w) (selOf w) = w := by
  have h0 : w.extractLsb' 26 6 = BitVec.ofNat 6 0x10 := toNat_inj.1 h
  simp only [encodeMoveC0, rsOf, rtOf, rdOf, selOf, ofNat_toNat, setWidth_eq, ← h0, ← hz]
  simp (disch := decide) only [extractLsb'_append_extractLsb'_eq_extractLsb']
  exact extractLsb'_eq_self

theorem encodeCo_self (h : opOf w = 0x10) (hs : rsOf w = 0x10) (hz : w.extractLsb' 6 15 = 0#15) :
    encodeCo (functOf w) = w := by
  have h0 : w.extractLsb' 26 6 = BitVec.ofNat 6 0x10 := toNat_inj.1 h
  have h1 : w.extractLsb' 21 5 = BitVec.ofNat 5 0x10 := toNat_inj.1 hs
  simp only [encodeCo, functOf, ofNat_toNat, setWidth_eq, ← h0, ← h1, ← hz]
  simp (disch := decide) only [extractLsb'_append_extractLsb'_eq_extractLsb']
  exact extractLsb'_eq_self

/-! The code fields and the jump target are made of the fields of the other forms. -/

theorem encodeTrap_eq_encodeR (rs rt : Nat) (w : Word) (fn : Nat) :
    encodeTrap rs rt (trapCodeOf w) fn = encodeR rs rt (rdOf w) (shamtOf w) fn := by
  have h : trapCodeOf w = BitVec.ofNat 5 (rdOf w) ++ BitVec.ofNat 5 (shamtOf w) := by
    simp (disch := decide) only [trapCodeOf, rdOf, shamtOf, ofNat_toNat, setWidth_eq,
      extractLsb'_append_extractLsb'_eq_extractLsb']
  rw [encodeTrap, h, encodeR]
  simp only [append_assoc, BitVec.cast_eq]

theorem encodeSys_eq_encodeR (w : Word) (fn : Nat) :
    encodeSys (sysCodeOf w) fn = encodeR (rsOf w) (rtOf w) (rdOf w) (shamtOf w) fn := by
  have h : sysCodeOf w = BitVec.ofNat 5 (rsOf w) ++ BitVec.ofNat 5 (rtOf w) ++
      BitVec.ofNat 5 (rdOf w) ++ BitVec.ofNat 5 (shamtOf w) := by
    simp (disch := decide) only [sysCodeOf, rsOf, rtOf, rdOf, shamtOf, ofNat_toNat, setWidth_eq,
      extractLsb'_append_extractLsb'_eq_extractLsb']
  rw [encodeSys, h, encodeR]
  simp only [append_assoc, BitVec.cast_eq]

theorem encodeJ_eq_encodeI (op : Nat) (w : Word) :
    encodeJ op (targetOf w) = encodeI op (rsOf w) (rtOf w) (immOf w) := by
  have h : targetOf w = BitVec.ofNat 5 (rsOf w) ++ BitVec.ofNat 5 (rtOf w) ++ immOf w := by
    simp (disch := decide) only [targetOf, rsOf, rtOf, immOf, ofNat_toNat, setWidth_eq,
      extractLsb'_append_extractLsb'_eq_extractLsb']
  rw [encodeJ, h, encodeI]
  simp only [append_assoc, BitVec.cast_eq]

/-- An op 0x00 word under a mask is the R-type word of its fields under the mask. -/
theorem and_eq_encodeR (h : opOf w = 0) (m : Word) :
    w &&& m = encodeR (rsOf w &&& (m.extractLsb' 21 5).toNat) (rtOf w &&& (m.extractLsb' 16 5).toNat)
      (rdOf w &&& (m.extractLsb' 11 5).toNat) (shamtOf w &&& (m.extractLsb' 6 5).toNat)
      (functOf w &&& (m.extractLsb' 0 6).toNat) := by
  have h0 : opOf (w &&& m) = 0 := by simp [fields_and, h]
  simpa only [fields_and] using (encodeR_self h0).symm

/-- A word under a mask is the I-type word of its fields under the mask. -/
theorem and_eq_encodeI (w m : Word) :
    w &&& m = encodeI (opOf w &&& (m.extractLsb' 26 6).toNat) (rsOf w &&& (m.extractLsb' 21 5).toNat)
      (rtOf w &&& (m.extractLsb' 16 5).toNat) (immOf w &&& m.extractLsb' 0 16) := by
  simpa only [fields_and] using (encodeI_self (w &&& m)).symm

/-! ### What a word decodes to -/

/-- The bits of a word the decoder reads on the way to `i`: those of its row and those of its operands (R117). -/
def Instr.readMask (i : Instr) : Word := i.row.mask ||| i.operandMask

/-- `i` is well-formed, and its encoding is `w` cut to the bits the decoder reads. -/
def IsCutOf (w : Word) (i : Instr) : Prop := i.wellFormed = true ∧ encode i = w &&& i.readMask

theorem isCutOf_of_decodeSpecial (h0 : opOf w = 0) (h : decodeSpecial w = .ok i) : IsCutOf w i := by
  unfold decodeSpecial at h
  split at h <;> cases h
  all_goals
    refine ⟨by simp [Instr.wellFormed], ?_⟩
    simp only [encode, encodeTrap_eq_encodeR, encodeSys_eq_encodeR, Instr.readMask, Instr.row, Instr.operandMask]
    simp [and_eq_encodeR h0, and_31, *]

theorem isCutOf_of_decodeRegimm (h0 : opOf w = 1) (h : decodeRegimm w = .ok i) : IsCutOf w i := by
  unfold decodeRegimm at h
  split at h <;> cases h
  all_goals
    refine ⟨by simp [Instr.wellFormed], ?_⟩
    simp only [encode, Instr.readMask, Instr.row, Instr.operandMask]
    simp [and_eq_encodeI, and_31, and_ones16, *]

theorem isCutOf_of_decodeCo (h0 : opOf w = 0x10) (h1 : rsOf w = 0x10) (h : decodeCo w = .ok i) : IsCutOf w i := by
  unfold decodeCo at h
  split at h <;> cases h
  all_goals
    refine ⟨rfl, ?_⟩
    simp only [encode, Instr.readMask, Instr.row, Instr.operandMask]
    rw [← encodeCo_self (w := w &&& _)] <;> simp [fields_and, extractLsb'_and, *]

theorem isCutOf_of_decodeCop0 (h0 : opOf w = 0x10) (h : decodeCop0 w = .ok i) : IsCutOf w i := by
  unfold decodeCop0 at h
  split at h
  -- rs = 0x10
  case h_3 hs => exact isCutOf_of_decodeCo h0 hs h
  all_goals cases h
  all_goals
    refine ⟨by simp [Instr.wellFormed], ?_⟩
    simp only [encode, Instr.readMask, Instr.row, Instr.operandMask]
    rw [← encodeMoveC0_self (w := w &&& _)] <;> simp [fields_and, and_31, and_7, extractLsb'_and, *]

theorem isCutOf_of_decodeWord (h : decodeWord w = .ok i) : IsCutOf w i := by
  unfold decodeWord at h
  split at h
  -- op = 0x00, 0x01 and 0x10 have a decoder of their own
  case h_1 h0 => exact isCutOf_of_decodeSpecial h0 h
  case h_2 h0 => exact isCutOf_of_decodeRegimm h0 h
  case h_17 h0 => exact isCutOf_of_decodeCop0 h0 h
  all_goals cases h
  all_goals
    refine ⟨by simp [Instr.wellFormed], ?_⟩
    simp only [encode, encodeJ_eq_encodeI, Instr.readMask, Instr.row, Instr.operandMask]
    simp [and_eq_encodeI, and_31, and_ones16, *]

/-- A word that agrees with the encoding of a well-formed instruction on the bits the decoder reads decodes to it: the
mask has every field that selects the decoder's arm or holds an operand, so those fields are the encoded ones. -/
theorem decodeWord_of_agrees (hi : i.wellFormed = true)
    (h : w &&& i.readMask = encode i &&& i.readMask) : decodeWord w = .ok i := by
  have hf := fields_congr h
  cases i
  all_goals
    simp only [Instr.readMask, Instr.row, Instr.operandMask, encode, encodeR_fields, encodeTrap_fields,
      encodeSys_fields, encodeI_fields, encodeJ_fields, encodeMoveC0_fields, encodeCo_fields] at hf
    simp only [Instr.wellFormed, Bool.and_eq_true, decide_eq_true_eq] at hi
    simp [decodeWord, decodeSpecial, decodeRegimm, decodeCop0, decodeCo, hf, hi, Nat.mod_eq_of_lt]

theorem decodeWord_eq_ok_iff : decodeWord w = .ok i ↔ IsCutOf w i :=
  ⟨isCutOf_of_decodeWord, fun ⟨hi, he⟩ => decodeWord_of_agrees hi (by rw [he, BitVec.and_assoc, BitVec.and_self])⟩

/-- Settles O1: the encoding agrees with itself, and a word is its four bytes. -/
theorem decodeOfEncodeIsTheInstruction : Obligations.DecodeOfEncodeIsTheInstruction := by
  intro i hi
  have h : decodeWord (encode i) = .ok i := decodeWord_of_agrees hi rfl
  refine ⟨h, fun rest => ?_⟩
  simp [encodeBytes, bytesOfWord, decode, wordOfBytes, word_bytes, h]

/-- Settles O4: a word decodes to `i` exactly when its bits under the mask are the encoding of `i`. -/
theorem onlyRowAndOperandBitsAreRead : Obligations.OnlyRowAndOperandBitsAreRead := by
  intro w i h
  obtain ⟨hi, he⟩ := decodeWord_eq_ok_iff.1 h
  exact ⟨he, fun w' h' => decodeWord_eq_ok_iff.2 ⟨hi, he.trans h'.symm⟩⟩

/-! ### The rows of the opcode table (R117) -/

theorem row_mem (i : Instr) : i.row ∈ opcodeRows := by
  cases i <;> exact of_decide_eq_true rfl

open Laws in
/-- The encoding of every instruction matches its row. -/
theorem encode_matches_row : ∀ i : Instr, encode i &&& i.row.mask = i.row.value
  | .add .. => FixedBits.add .. | .addu .. => FixedBits.addu .. | .sub .. => FixedBits.sub ..
  | .subu .. => FixedBits.subu .. | .and .. => FixedBits.and .. | .or .. => FixedBits.or ..
  | .xor .. => FixedBits.xor .. | .nor .. => FixedBits.nor .. | .sll .. => FixedBits.sll ..
  | .srl .. => FixedBits.srl .. | .sra .. => FixedBits.sra .. | .sllv .. => FixedBits.sllv ..
  | .srlv .. => FixedBits.srlv .. | .srav .. => FixedBits.srav .. | .slt .. => FixedBits.slt ..
  | .sltu .. => FixedBits.sltu .. | .movn .. => FixedBits.movn .. | .movz .. => FixedBits.movz ..
  | .mult .. => FixedBits.mult .. | .multu .. => FixedBits.multu .. | .div .. => FixedBits.div ..
  | .divu .. => FixedBits.divu .. | .mfhi .. => FixedBits.mfhi .. | .mflo .. => FixedBits.mflo ..
  | .mthi .. => FixedBits.mthi .. | .mtlo .. => FixedBits.mtlo .. | .teq .. => FixedBits.teq ..
  | .tne .. => FixedBits.tne .. | .tge .. => FixedBits.tge .. | .tgeu .. => FixedBits.tgeu ..
  | .tlt .. => FixedBits.tlt .. | .tltu .. => FixedBits.tltu .. | .syscall .. => FixedBits.syscall ..
  | .brk .. => FixedBits.brk .. | .sync .. => FixedBits.sync .. | .addi .. => FixedBits.addi ..
  | .addiu .. => FixedBits.addiu .. | .andi .. => FixedBits.andi .. | .ori .. => FixedBits.ori ..
  | .xori .. => FixedBits.xori .. | .slti .. => FixedBits.slti .. | .sltiu .. => FixedBits.sltiu ..
  | .lui .. => FixedBits.lui .. | .lw .. => FixedBits.lw .. | .lh .. => FixedBits.lh ..
  | .lhu .. => FixedBits.lhu .. | .lb .. => FixedBits.lb .. | .lbu .. => FixedBits.lbu ..
  | .sw .. => FixedBits.sw .. | .sh .. => FixedBits.sh .. | .sb .. => FixedBits.sb ..
  | .lwl .. => FixedBits.lwl .. | .lwr .. => FixedBits.lwr .. | .swl .. => FixedBits.swl ..
  | .swr .. => FixedBits.swr .. | .ll .. => FixedBits.ll .. | .sc .. => FixedBits.sc ..
  | .beq .. => FixedBits.beq .. | .bne .. => FixedBits.bne .. | .blez .. => FixedBits.blez ..
  | .bgtz .. => FixedBits.bgtz .. | .bltz .. => FixedBits.bltz .. | .bgez .. => FixedBits.bgez ..
  | .bltzal .. => FixedBits.bltzal .. | .bgezal .. => FixedBits.bgezal .. | .j .. => FixedBits.j ..
  | .jal .. => FixedBits.jal .. | .jr .. => FixedBits.jr .. | .jalr .. => FixedBits.jalr ..
  | .mfc0 .. => FixedBits.mfc0 .. | .mtc0 .. => FixedBits.mtc0 .. | .eret .. => FixedBits.eret ..
  | .tlbp .. => FixedBits.tlbp .. | .tlbr .. => FixedBits.tlbr .. | .tlbwi .. => FixedBits.tlbwi ..
  | .tlbwr .. => FixedBits.tlbwr ..

/-- A word matches the row of any instruction it decodes to, since its encoding does. -/
theorem IsCutOf.matches_row (h : IsCutOf w i) : w &&& i.row.mask = i.row.value := by
  have hm : i.readMask &&& i.row.mask = i.row.mask := by ext; simp +contextual [Instr.readMask]
  rw [← encode_matches_row i, h.2, BitVec.and_assoc, hm]

/-- Settles O2: the operands are fields, and the row matches because the encoding's does. -/
theorem decodedWordMatchesItsRow : Obligations.DecodedWordMatchesItsRow := by
  intro w i h
  have hc := isCutOf_of_decodeWord h
  exact ⟨hc.1, hc.matches_row, row_mem i⟩

/-! ### Reserved words (R124): whether a word decodes depends on the fields that select the decoder's arm -/

/-- The fields by which the decoder goes on are the same (R116, R119 to R122). -/
structure SameKeys (w v : Word) : Prop where
  op : opOf w = opOf v
  special : opOf v = 0x00 → functOf w = functOf v
  regimm : opOf v = 0x01 → rtOf w = rtOf v
  cop0 : opOf v = 0x10 → rsOf w = rsOf v
  co : opOf v = 0x10 → rsOf v = 0x10 → functOf w = functOf v

theorem decodeSpecial_isOk_congr (h : functOf w = functOf v) : (decodeSpecial w).isOk = (decodeSpecial v).isOk := by
  unfold decodeSpecial
  rw [h]
  split <;> rfl

theorem decodeRegimm_isOk_congr (h : rtOf w = rtOf v) : (decodeRegimm w).isOk = (decodeRegimm v).isOk := by
  unfold decodeRegimm
  rw [h]
  split <;> rfl

theorem decodeCo_congr (h : functOf w = functOf v) : decodeCo w = decodeCo v := by
  unfold decodeCo
  rw [h]

theorem decodeCop0_isOk_congr (h : rsOf w = rsOf v) (hco : rsOf v = 0x10 → functOf w = functOf v) :
    (decodeCop0 w).isOk = (decodeCop0 v).isOk := by
  unfold decodeCop0
  rw [h]
  split
  -- rs = 0x10
  case h_3 hs => rw [decodeCo_congr (hco hs)]
  all_goals rfl

theorem SameKeys.decodeWord_isOk (h : SameKeys w v) : (decodeWord w).isOk = (decodeWord v).isOk := by
  unfold decodeWord
  rw [h.op]
  split
  -- op = 0x00, 0x01 and 0x10
  case h_1 hv => exact decodeSpecial_isOk_congr (h.special hv)
  case h_2 hv => exact decodeRegimm_isOk_congr (h.regimm hv)
  case h_17 hv => exact decodeCop0_isOk_congr (h.cop0 hv) (h.co hv)
  all_goals rfl

/-- Each row's value decodes, and its mask has every field by which the decoder goes on. -/
theorem opcodeRows_keys : ∀ r ∈ opcodeRows, (decodeWord r.value).isOk = true ∧ r.value &&& r.mask = r.value ∧
    r.mask.extractLsb' 26 6 = allOnes 6 ∧
    (opOf r.value = 0x00 → r.mask.extractLsb' 0 6 = allOnes 6) ∧
    (opOf r.value = 0x01 → r.mask.extractLsb' 16 5 = allOnes 5) ∧
    (opOf r.value = 0x10 → r.mask.extractLsb' 21 5 = allOnes 5) ∧
    (opOf r.value = 0x10 → rsOf r.value = 0x10 → r.mask.extractLsb' 0 6 = allOnes 6) := by
  decide

/-- A word that matches a row decodes, since the row's value does. -/
theorem decodeWord_isOk_of_row {r : OpcodeRow} (hr : r ∈ opcodeRows) (h : w &&& r.mask = r.value) :
    (decodeWord w).isOk = true := by
  obtain ⟨hok, hv, hop, hspecial, hregimm, hcop0, hco⟩ := opcodeRows_keys r hr
  obtain ⟨op, rs, rt, -, -, funct, -⟩ := fields_congr (h.trans hv.symm)
  have hk : SameKeys w r.value :=
    ⟨op hop, fun e => funct (hspecial e), fun e => rt (hregimm e), fun e => rs (hcop0 e), fun e e' => funct (hco e e')⟩
  rw [hk.decodeWord_isOk, hok]

/-- The decoder rejects a word exactly when no row matches it. -/
theorem decodeWord_error_iff (w : Word) :
    (∃ e, decodeWord w = .error e) ↔ ∀ r ∈ opcodeRows, w &&& r.mask ≠ r.value := by
  constructor
  · rintro ⟨e, he⟩ r hr hm
    have hok := decodeWord_isOk_of_row hr hm
    rw [he] at hok
    cases hok
  · intro hno
    cases hd : decodeWord w with
    | error e => exact ⟨e, rfl⟩
    | ok i => exact absurd (isCutOf_of_decodeWord hd).matches_row (hno _ (row_mem i))

/-- Settles O3: a step that reaches a rejected word raises RI. -/
theorem reservedWordsAreThoseOfNoRow : Obligations.ReservedWordsAreThoseOfNoRow := by
  refine ⟨decodeWord_error_iff, fun s t w hf hno => ?_⟩
  obtain ⟨e, he⟩ := (decodeWord_error_iff w).2 hno
  simp [step, hf, he]

end Sys2Proof
end

section
/-! The fetch-execute family (40_fetch_execute.md): what taking an exception shows in the next state, how an instruction
can end or be refused, and what the stages of a step do. -/

namespace Sys2Proof.Machine

variable {s t : State}

/-! ### The stages of a step (40_fetch_execute.md R151 to R155) -/

theorem step_of_stopped (hstop : s.running = false) : step s = .next s := by
  simp [step, State.front, hstop]

theorem step_of_load32_none (hrun : s.running = true) (hfetch : s.load32 s.pc = none) :
    step s = .next (s.addressError .adel s.pc) := by
  simp [step, State.front, hrun, hfetch]

theorem step_of_pendingInterrupt {w : Word} (hrun : s.running = true) (hfetch : s.load32 s.pc = some w)
    (hirq : s.tick.cp0.pendingInterrupt = true) : step s = .next (s.tick.raise .int) := by
  simp [step, State.front, hrun, hfetch, hirq, -State.tick_cp0]

theorem step_of_decodeWord {w : Word} {i : Instr} (hrun : s.running = true) (hfetch : s.load32 s.pc = some w)
    (hirq : s.tick.cp0.pendingInterrupt = false) (hdec : decodeWord w = .ok i) : step s = exec i s.tick := by
  simp [step, State.front, hrun, hfetch, hirq, hdec, -State.tick_cp0]

/-! ### What the raise and stage 2 leave in CP0 (60_exceptions.md R388, R404) -/

theorem Cp0.raise_cause_of_outside (c : Cp0) (e : ExcCode) (pc : Word) (d : Bool) {j : Nat}
    (h : j < 2 ∨ (6 < j ∧ j ≠ 31)) : (c.raise e pc d).cause.getLsbD j = c.cause.getLsbD j := by
  rw [Cp0.raise_cause, if_neg (by omega), if_neg (by omega)]

theorem Cp0.raise_status_of_ne (c : Cp0) (e : ExcCode) (pc : Word) (d : Bool) {j : Nat} (h : j ≠ 1) :
    (c.raise e pc d).status.getLsbD j = c.status.getLsbD j := by
  rw [Cp0.raise_status, if_neg h]

theorem Cp0.tick_status (c : Cp0) : c.tick.status = c.status := (congrArg Cp0.status c.tick_others :)

theorem Cp0.tick_badVAddr (c : Cp0) : c.tick.badVAddr = c.badVAddr := (congrArg Cp0.badVAddr c.tick_others :)

theorem Cp0.vectorFor_int (c : Cp0) : c.vectorFor .int = c.vectorBase + if c.iv then 0x200 else 0x180 := by
  simp [Cp0.vectorFor]

theorem State.tick_vectorFor (s : State) (e : ExcCode) : s.tick.cp0.vectorFor e = s.cp0.vectorFor e :=
  s.cp0.tick_vectorFor s.cfg.tlbSize e

/-! ### Taking an exception (40_fetch_execute.md R158, R164; 60_exceptions.md R388, R396) -/

/-- What `t` shows of the exception `e` taken in `s`, whether or not it is an address error: the saved position, the
vector, the disposition, and everything outside CP0 kept. -/
structure TakesException (e : ExcCode) (s t : State) : Prop where
  excCode : t.cp0.excCode = excNumber e
  bd : t.cp0.bd = s.inDelay
  epc : t.cp0.epc = if s.inDelay then s.pc - 4 else s.pc
  exl : t.cp0.exl = true
  pc : t.pc = s.cp0.vectorFor e
  inDelay : t.inDelay = false
  running : t.running = if e ∈ s.cfg.haltCodes then false else s.running
  gprs : KeepsGprs s t
  hiLo : KeepsHiLo s t
  mem : KeepsMem s t
  tlb : t.tlb = s.tlb
  cfg : t.cfg = s.cfg

theorem takesException_raise (s : State) (e : ExcCode) : TakesException e s (s.raise e) where
  excCode := Cp0.raise_excCode _ _ _ _
  bd := Cp0.raise_bd _ _ _ _
  epc := rfl
  exl := Cp0.raise_exl _ _ _ _
  pc := rfl
  inDelay := rfl
  running := rfl
  gprs _ := rfl
  hiLo := ⟨rfl, rfl⟩
  mem _ := rfl
  tlb := rfl
  cfg := rfl

/-- Nothing `TakesException` compares with reads BadVAddr, which an address error writes before its raise. -/
theorem takesException_addressError (s : State) (e : ExcCode) (a : Word) :
    TakesException e s (s.addressError e a) :=
  { takesException_raise (s.setBadVAddr a) e with }

/-- Stage 2 moves nothing that `TakesException` compares with. -/
theorem TakesException.of_tick {e : ExcCode} (h : TakesException e s.tick t) : TakesException e s t :=
  { h with pc := h.pc.trans (s.tick_vectorFor e) }

/-- The exceptions an instruction itself can raise (R158); Int and RI belong to stages 3 and 4. -/
def execCodes : List ExcCode := [.adel, .ades, .sys, .bp, .ov, .tr]

/-- An instruction keeps `running`, unless it takes one of its exceptions. -/
theorem Ends.running {i : Instr} {r : Result} (hr : Ends i s r) :
    NextSat (fun t => t.running = s.running ∨ ∃ e, TakesException e s t) r := by
  cases hr with
  | raise e => exact nextSat_next (.inr ⟨e, takesException_raise s e⟩)
  | addressError e a => exact nextSat_next (.inr ⟨e, takesException_addressError s e a⟩)
  | delay | linkDelay => exact nextSat_delayTo fun _ => .inl rfl
  | eret => exact nextSat_goTo (.inl rfl)
  | _ => exact nextSat_next (.inl rfl)

/-- So does a step. -/
theorem step_running (h : step s = .next t) : t.running = s.running ∨ ∃ e, TakesException e s t := by
  rcases step_next_cases h with ⟨-, rfl⟩ | rfl | ⟨e, rfl⟩ | ⟨w, i, -, -, he⟩
  · exact .inl rfl
  · exact .inr ⟨_, takesException_addressError s _ _⟩
  · exact .inr ⟨e, (takesException_raise s.tick e).of_tick⟩
  · exact ((exec_ends i s.tick).running t he).imp id fun ⟨e, hx⟩ => ⟨e, hx.of_tick⟩

theorem TakesException.was_running {e : ExcCode} (h : TakesException e s t) (ht : t.running = true) :
    s.running = true := by
  rw [h.running] at ht
  split at ht
  · exact nomatch ht
  · exact ht

theorem TakesException.mem_haltCodes {e : ExcCode} (h : TakesException e s t) (hs : s.running = true)
    (ht : t.running = false) : e ∈ s.cfg.haltCodes := by
  by_contra hlive
  rw [h.running, if_neg hlive, hs] at ht
  exact nomatch ht

/-- Settles O11: a step that moves `running` takes an exception, and its disposition moves it only from 1 to 0. -/
theorem onlyFatalExceptionsStopTheCore : Obligations.OnlyFatalExceptionsStopTheCore := by
  refine ⟨fun s hs => step_of_stopped hs, fun s t h => ?_⟩
  obtain hkeep | ⟨e, he⟩ := step_running h
  · exact ⟨fun ht => hkeep ▸ ht, fun hs ht => absurd (hkeep.trans hs) (by simp [ht])⟩
  · exact ⟨he.was_running, fun hs ht => ⟨e, he.mem_haltCodes hs ht, he.excCode, he.exl, he.pc⟩⟩

/-! ### The four outcomes of an instruction (40_fetch_execute.md R157 to R161) -/

/-- The outcomes `next`, `delayed(T)`, `immediate(T)` and an exception, each with the instructions that can have it. -/
def HasOutcome (i : Instr) (s t : State) : Prop :=
  Retires s t ∨
  (isJumpOrBranch i = true ∧ s.inDelay = false ∧ t.pc = s.pc + 4 ∧ t.inDelay = true) ∨
  (i = .eret ∧ s.inDelay = false ∧ t.pc = s.cp0.eretTarget ∧ t.inDelay = false) ∨
  ∃ e ∈ execCodes, TakesException e s t

theorem Ends.hasOutcome {i : Instr} {r : Result} (hr : Ends i s r) : NextSat (HasOutcome i s) r := by
  cases hr with
  | raise e he =>
    exact nextSat_next (.inr (.inr (.inr ⟨e, List.mem_append_right [ExcCode.adel, .ades] he, takesException_raise s e⟩)))
  | addressError e a he =>
    exact nextSat_next (.inr (.inr (.inr ⟨e, List.mem_append_left [ExcCode.sys, .bp, .ov, .tr] he,
      takesException_addressError s e a⟩)))
  | delay _ hi | linkDelay _ _ hi => exact nextSat_delayTo fun hd => .inr (.inl ⟨hi, hd, rfl, rfl⟩)
  | eret hi =>
    intro t e
    obtain ⟨hd, rfl⟩ := goTo_cases e
    exact .inr (.inr (.inl ⟨hi, hd, rfl, rfl⟩))
  | _ => exact nextSat_next (.inl (retires_retire _ _ rfl rfl rfl))

/-- Settles O21, by the ways an instruction can end. -/
theorem everyInstructionEndsInOneOfFourOutcomes : Obligations.EveryInstructionEndsInOneOfFourOutcomes := by
  intro i s t h
  rcases (exec_ends i s).hasOutcome t h with hnext | hdelayed | himmediate | ⟨e, hmem, he⟩
  · exact .inl hnext
  · exact .inr (.inl hdelayed)
  · exact .inr (.inr (.inl himmediate))
  · exact .inr (.inr (.inr ⟨e, hmem, he.excCode, he.bd, he.epc, he.exl, he.pc, he.inDelay, he.gprs, he.hiLo, he.mem,
      he.tlb⟩))

/-! ### Fetch, interrupt and decode, as claimed (40_fetch_execute.md R152 to R155) -/

/-- Four bytes decode exactly as their word does. -/
theorem decodeWord_of_decode {b0 b1 b2 b3 : Byte} {i : Instr} {rest : List Byte}
    (h : decode [b0, b1, b2, b3] = .ok (i, rest)) : decodeWord (b0 ++ b1 ++ b2 ++ b3) = .ok i := by
  simp only [decode, wordOfBytes] at h
  split at h
  · rename_i hi
    cases h
    exact hi
  · exact nomatch h

/-- Settles O6: the word fetched is the four bytes at PC. -/
theorem stepExecutesTheInstructionAtPc : Obligations.StepExecutesTheInstructionAtPc :=
  fun _ _ _ hrun hadm hdec hirq =>
    ⟨step_of_decodeWord hrun (load32_admits hadm) hirq (decodeWord_of_decode hdec), rfl⟩

/-- Settles O7: the fetch answers `none`, and the step is the address error, whole. -/
theorem failedFetchTakesAdel : Obligations.FailedFetchTakesAdel := by
  intro s hrun hbad
  have hfetch : s.load32 s.pc = none := load32_not_admits fun ⟨haligned, hinside⟩ => by omega
  have h := takesException_addressError s .adel s.pc
  exact ⟨_, step_of_load32_none hrun hfetch, rfl, h.excCode, h.bd, h.epc, h.exl, h.pc, h.inDelay, rfl, rfl,
    fun _ hj => Cp0.raise_cause_of_outside _ _ _ _ hj, fun _ hj => Cp0.raise_status_of_ne _ _ _ _ hj, rfl, rfl,
    hrun ▸ h.running, h.gprs, h.hiLo, h.mem, h.tlb, h.cfg⟩

/-- Settles O8: the step is the Int raised after stage 2, whole, and stage 2 moves no vector. -/
theorem pendingInterruptIsTakenBeforeExecution : Obligations.PendingInterruptIsTakenBeforeExecution := by
  intro s w hrun hfetch hirq
  have h := (takesException_raise s.tick .int).of_tick
  have hstatus {j : Nat} (hj : j ≠ 1) :
      (s.tick.raise .int).cp0.status.getLsbD j = s.cp0.status.getLsbD j :=
    (Cp0.raise_status_of_ne _ _ _ _ hj).trans (congrArg (·.getLsbD j) s.cp0.tick_status)
  exact ⟨_, step_of_pendingInterrupt hrun hfetch hirq, h.excCode, h.bd, h.epc, h.exl, Cp0.raise_ip _ _ _ _,
    s.cp0.tick_badVAddr, h.pc.trans s.cp0.vectorFor_int, h.inDelay, s.cp0.tick_count, rfl,
    fun _ hj => Cp0.raise_cause_of_outside _ _ _ _ hj, fun _ hj => hstatus hj, Cp0.raise_others _ _ _ _, rfl,
    hrun ▸ h.running, h.gprs, h.hiLo, h.mem, h.tlb, h.cfg⟩

/-! ### The one refusal (40_fetch_execute.md R163) -/

/-- An answer for `i` in `s` that is no fault, and is a refusal only of a control transfer in a delay slot. -/
def StopsOnlyInSlot (i : Instr) (s : State) : Result → Prop
  | .next _ => True
  | .fault _ => False
  | .refused x => x = .controlTransferInDelaySlot ∧ s.inDelay = true ∧ isControlTransfer i = true

theorem stopsOnlyInSlot_delayTo {i : Instr} (s : State) (T : Word) (hi : isControlTransfer i = true) :
    StopsOnlyInSlot i s (s.delayTo T) := by
  unfold State.delayTo
  split
  · rename_i hd
    exact ⟨rfl, hd, hi⟩
  · trivial

theorem stopsOnlyInSlot_goTo {i : Instr} (s : State) (T : Word) (hi : isControlTransfer i = true) :
    StopsOnlyInSlot i s (s.goTo T) := by
  unfold State.goTo
  split
  · rename_i hd
    exact ⟨rfl, hd, hi⟩
  · trivial

theorem isControlTransfer_of_isJumpOrBranch {i : Instr} (hi : isJumpOrBranch i = true) : isControlTransfer i = true := by
  simp [isControlTransfer, hi]

theorem Ends.stopsOnlyInSlot {i : Instr} {r : Result} (hr : Ends i s r) : StopsOnlyInSlot i s r := by
  cases hr with
  | delay T hi => exact stopsOnlyInSlot_delayTo s T (isControlTransfer_of_isJumpOrBranch hi)
  | linkDelay n T hi => exact stopsOnlyInSlot_delayTo (s.writeGpr n _) T (isControlTransfer_of_isJumpOrBranch hi)
  | eret hi => exact stopsOnlyInSlot_goTo (s.setCp0 _) _ (hi ▸ rfl)
  | _ => trivial

/-- A step answers a next state, or what the instruction it executes after the tick answers. -/
theorem step_next_or_exec (s : State) : (∃ t, step s = .next t) ∨
    ∃ w i, s.front = .ready w s.tick ∧ decodeWord w = .ok i ∧ step s = exec i s.tick := by
  rcases step_cases s with ⟨-, e⟩ | ⟨-, -, e⟩ | ⟨_, -, -, -, e⟩ | ⟨_, _, -, -, -, e⟩ | ⟨w, i, -, hf, hd, e⟩
  · exact .inl ⟨_, e⟩
  · exact .inl ⟨_, e⟩
  · exact .inl ⟨_, e⟩
  · exact .inl ⟨_, e⟩
  · exact .inr ⟨w, i, hf, hd, e⟩

/-- Settles O26: an instruction stops only in a slot, and the tick keeps in_delay. -/
theorem stepStopsOnlyOnATransferInADelaySlot : Obligations.StepStopsOnlyOnATransferInADelaySlot := by
  intro s
  obtain ⟨t, hnext⟩ | ⟨w, i, hf, hd, hexec⟩ := step_next_or_exec s
  · rw [hnext]
    exact ⟨fun _ => nofun, fun _ => nofun⟩
  · have hstop := (exec_ends i s.tick).stopsOnlyInSlot
    rw [hexec]
    refine ⟨fun x hx => (hx ▸ hstop : StopsOnlyInSlot i s.tick (.fault x)), fun x hx => ?_⟩
    obtain ⟨hrefusal, hslot, hi⟩ := (hx ▸ hstop : StopsOnlyInSlot i s.tick (.refused x))
    exact ⟨hrefusal, hslot, w, s.tick, i, hf, hd, hi⟩

/-! ### Control transfers in a delay slot (40_fetch_execute.md R163, 46_branch_jump.md R310) -/

theorem isNegative_iff (a : Word) : isNegative a = true ↔ a.toInt < 0 := decide_eq_true_iff

theorem isPositive_iff (a : Word) : isPositive a = true ↔ a.toInt > 0 := decide_eq_true_iff

theorem not_isNegative_iff (a : Word) : (!isNegative a) = true ↔ a.toInt ≥ 0 := by
  simp [isNegative_iff, ← Bool.not_eq_true]

theorem not_isPositive_iff (a : Word) : (!isPositive a) = true ↔ a.toInt ≤ 0 := by
  simp [isPositive_iff, ← Bool.not_eq_true]

/-- A branch in a delay slot, its condition `taken` meaning `p`. -/
theorem branchIf_inDelay (h : s.inDelay = true) {taken : Bool} {p : Prop} [Decidable p] (hp : taken = true ↔ p)
    (off : BitVec 16) :
    s.branchIf taken off = if p then .refused .controlTransferInDelaySlot else .next s.retire := by
  unfold State.branchIf
  rw [delayTo_inDelay s _ h]
  exact if_congr hp rfl rfl

theorem exec_transfer_inDelay (h : s.inDelay = true) {i : Instr}
    (hi : i = .eret ∨ (∃ x, i = .j x ∨ i = .jal x) ∨ ∃ rd rs, i = .jr rs ∨ i = .jalr rd rs) :
    exec i s = .refused .controlTransferInDelaySlot := by
  rcases hi with rfl | ⟨x, rfl | rfl⟩ | ⟨rd, rs, rfl | rfl⟩
  · exact goTo_inDelay (s.setCp0 _) _ h
  · exact delayTo_inDelay s _ h
  · exact delayTo_inDelay (s.writeGpr _ _) _ h
  · exact delayTo_inDelay s _ h
  · exact delayTo_inDelay (s.writeGpr _ _) _ h

/-- Settles O27: in a slot every way to a target is refused, and a branch not taken does its link and retires. -/
theorem transferInADelaySlotIsRefused : Obligations.TransferInADelaySlotIsRefused := by
  intro s h
  have hlink : (s.writeGpr 31 (s.pc + 8)).inDelay = true := h
  obtain ⟨t, hfinish, hwrites, honly, hretires⟩ := finish_spec s (n := 31) (s.pc + 8) (by decide)
  obtain rfl : (s.writeGpr 31 (s.pc + 8)).retire = t := Host.Outcome.next.inj hfinish
  exact ⟨fun i hi => exec_transfer_inDelay h hi,
    fun _ _ off => ⟨branchIf_inDelay h beq_iff_eq off, branchIf_inDelay h bne_iff_ne off⟩,
    fun _ off =>
      ⟨branchIf_inDelay h (not_isPositive_iff _) off, branchIf_inDelay h (isPositive_iff _) off,
        branchIf_inDelay h (isNegative_iff _) off, branchIf_inDelay h (not_isNegative_iff _) off,
        branchIf_inDelay hlink (isNegative_iff _) off, branchIf_inDelay hlink (not_isNegative_iff _) off⟩,
    retires_self s, onlyPc_retire s, hretires, hwrites, honly⟩

end Sys2Proof.Machine
end

section
/-! The R-type arithmetic family (41_rtype_alu.md), with SLTI and SLTIU: how a dispatch key fixes the instruction, what each
result is in integers or bit by bit, and how an instruction that writes one register ends. -/

namespace Sys2Proof.Machine

/-! ### Encodings (30_encoding.md R119, R120) -/

theorem decodeWord_of_special {w : Word} (h : opOf w = 0) : decodeWord w = decodeSpecial w := by
  simp only [decodeWord, h]

/-- An op 0x00 word decodes by the arm of `decodeSpecial` for its `funct`; the premise is that arm, which `simp` reads off. -/
theorem specialIs {funct : Nat} {mk : Word → Instr}
    (harm : ∀ w, functOf w = funct → decodeSpecial w = .ok (mk w) := by intro w h; simp only [decodeSpecial, h]) :
    SpecialIs funct mk :=
  fun w hop hfunct => (decodeWord_of_special hop).trans (harm w hfunct)

/-- A word of a major opcode that is one instruction decodes by its arm of `decodeWord`. -/
theorem majorIs {op : Nat} {mk : Word → Instr}
    (harm : ∀ w, opOf w = op → decodeWord w = .ok (mk w) := by intro w h; simp only [decodeWord, h]) : MajorIs op mk :=
  harm

/-! ### Results in integers (41_rtype_alu.md R182 to R185, R198, R199) -/

/-- A number in the signed range is its own signed residue modulo 2^32. -/
theorem bmod_of_fitsSigned {x : Int} (h : fitsSigned x) : x.bmod (2 ^ 32) = x := Int.bmod_eq_of_le h.1 h.2

theorem toInt_add_of_fitsSigned {a b : Word} (h : fitsSigned (a.toInt + b.toInt)) : (a + b).toInt = a.toInt + b.toInt :=
  (BitVec.toInt_add a b).trans (bmod_of_fitsSigned h)

theorem toInt_sub_of_fitsSigned {a b : Word} (h : fitsSigned (a.toInt - b.toInt)) : (a - b).toInt = a.toInt - b.toInt :=
  BitVec.toInt_sub.trans (bmod_of_fitsSigned h)

theorem ofNat_add_mod (a b : Word) : BitVec.ofNat 32 ((a.toNat + b.toNat) % 2 ^ 32) = a + b := by
  apply BitVec.eq_of_toNat_eq
  rw [BitVec.toNat_ofNat, BitVec.toNat_add, Nat.mod_mod]

theorem ofNat_sub_mod (a b : Word) : BitVec.ofNat 32 ((2 ^ 32 + a.toNat - b.toNat) % 2 ^ 32) = a - b := by
  apply BitVec.eq_of_toNat_eq
  rw [BitVec.toNat_ofNat, BitVec.toNat_sub, Nat.mod_mod, Nat.sub_add_comm b.isLt.le]

theorem signedLt_iff (a b : Word) : signedLt a b = true ↔ a.toInt < b.toInt := decide_eq_true_iff

theorem unsignedLt_iff (a b : Word) : unsignedLt a b = true ↔ a.toNat < b.toNat := decide_eq_true_iff

/-- The sign-extended immediate as a signed number (30_encoding.md R123). -/
theorem sext16_toInt (imm : BitVec 16) : (sext16 imm).toInt = imm.toInt := BitVec.toInt_signExtend_of_le (by decide)

/-- The sign-extended immediate as an unsigned number (30_encoding.md R123). -/
theorem sext16_toNat (imm : BitVec 16) :
    (sext16 imm).toNat = if imm.msb then imm.toNat + 0xFFFF0000 else imm.toNat := by
  rw [sext16, BitVec.toNat_signExtend, BitVec.toNat_setWidth_of_le (by decide)]
  split <;> rfl

/-! ### Results bit by bit (41_rtype_alu.md R189, R191 to R197) -/

theorem getLsbD_nor (a b : Word) {j : Nat} (hj : j < 32) : (~~~(a ||| b)).getLsbD j = !(a.getLsbD j || b.getLsbD j) := by
  rw [BitVec.getLsbD_not, BitVec.getLsbD_or, decide_eq_true hj, Bool.true_and]

theorem getLsbD_sll (a : Word) (n : Nat) {j : Nat} (hj : j < 32) :
    (a <<< n).getLsbD j = if n ≤ j then a.getLsbD (j - n) else false := by
  rw [BitVec.getLsbD_shiftLeft]
  by_cases h : n ≤ j
  · simp [hj, h]
  · simp [h, Nat.lt_of_not_le h]

theorem getLsbD_srl (a : Word) (n j : Nat) :
    (a >>> n).getLsbD j = if j + n < 32 then a.getLsbD (j + n) else false := by
  rw [BitVec.getLsbD_ushiftRight, Nat.add_comm]
  split
  · rfl
  · exact BitVec.getLsbD_of_ge _ _ (by omega)

theorem getLsbD_sra (a : Word) (n : Nat) {j : Nat} (hj : j < 32) :
    (a.sshiftRight n).getLsbD j = a.getLsbD (min 31 (j + n)) := by
  rw [BitVec.getLsbD_sshiftRight, Nat.add_comm n j, BitVec.msb_eq_getLsbD_last]
  by_cases h : j + n < 32
  · simp [hj, h, Nat.min_eq_right (show j + n ≤ 31 by omega)]
  · simp [hj, h, Nat.min_eq_left (show 31 ≤ j + n by omega)]

/-- The low five bits of a word are the word modulo 32 (R191). -/
theorem shiftAmount_eq (v : Word) : shiftAmount v = v.toNat % 32 := BitVec.extractLsb'_toNat 0 5 v

/-! ### Instructions that write one register -/

/-- A result described bit by bit. -/
theorem finish_bits (s : State) {n : Nat} {v : Word} {b : Nat → Bool} (hn : n < 32) (hv : ∀ j < 32, v.getLsbD j = b j) :
    ∃ t u, s.finish n v = .next t ∧ WritesGpr n u s t ∧ OnlyGprs s t ∧ Retires s t ∧ ∀ j < 32, u.getLsbD j = b j := by
  obtain ⟨t, hnext, hwrites, honly, hretires⟩ := finish_spec s v hn
  exact ⟨t, v, hnext, hwrites, honly, hretires, hv⟩

/-- A comparison written as 0 or 1. -/
theorem finish_bit (s : State) {n : Nat} {b : Bool} {p : Prop} [Decidable p] (hn : n < 32) (hb : b = true ↔ p) :
    ∃ t, s.finish n (bit b) = .next t ∧ OnlyGprs s t ∧ Retires s t ∧ WritesGpr n (if p then 1 else 0) s t := by
  obtain ⟨t, hnext, hwrites, honly, hretires⟩ := finish_spec s (bit b) hn
  have hbit : bit b = if p then 1 else 0 := if_congr hb rfl rfl
  exact ⟨t, hnext, honly, hretires, hbit ▸ hwrites⟩

/-- A result `v` that is exactly `x` unless `ov`, which takes Ov: the form of ADD, SUB and ADDI (R182, R184). -/
theorem finish_or_ov (s : State) {n : Nat} {v : Word} {ov : Bool} {x : Int} (hn : n < 32)
    (hov : ov = true ↔ ¬fitsSigned x) (hv : fitsSigned x → v.toInt = x) :
    (fitsSigned x → ∃ t, (if ov then .next (s.raise .ov) else s.finish n v) = .next t ∧
      (n ≠ 0 → (t.readGpr n).toInt = x) ∧ WritesGpr n v s t ∧ OnlyGprs s t ∧ Retires s t) ∧
    (¬fitsSigned x → (if ov then .next (s.raise .ov) else s.finish n v) = .next (s.raise .ov)) := by
  refine ⟨fun hfits => ?_, fun hfits => if_pos (hov.2 hfits)⟩
  obtain ⟨t, hnext, hwrites, honly, hretires⟩ := finish_spec s v hn
  have hread (h0 : n ≠ 0) : t.readGpr n = v := hwrites.1.trans (if_neg h0)
  exact ⟨t, (if_neg fun h => hov.1 h hfits).trans hnext, fun h0 => hread h0 ▸ hv hfits, hwrites, honly, hretires⟩

/-- A move on a condition: where it fails no register is written (R200, R201). -/
theorem finish_if (s : State) {n : Nat} (v : Word) (p : Prop) [Decidable p] (hn : n < 32) :
    ∃ t, (if p then s.finish n v else .next s.retire) = .next t ∧ OnlyGprs s t ∧ Retires s t ∧
      (p → WritesGpr n v s t) ∧ (¬p → KeepsGprs s t) := by
  by_cases hp : p
  · obtain ⟨t, hnext, hwrites, honly, hretires⟩ := finish_spec s v hn
    exact ⟨t, (if_pos hp).trans hnext, honly, hretires, fun _ => hwrites, fun h => absurd hp h⟩
  · obtain ⟨hkeeps, honly⟩ := onlyPc_retire s
    exact ⟨s.retire, if_neg hp, honly, retires_self s, fun h => absurd h hp, fun _ => hkeeps⟩

/-! ### The instructions, as claimed -/

/-- Settles O28: the overflow predicates say that the exact result does not fit, and where it fits the word is it. -/
theorem addAndSubGiveTheExactResultOrTakeOv : Obligations.AddAndSubGiveTheExactResultOrTakeOv := by
  refine ⟨specialIs, specialIs, fun s rd rs rt hrd => ?_⟩
  obtain ⟨hadd, haddOv⟩ := finish_or_ov s hrd (addOverflow_iff (s.readGpr rs) (s.readGpr rt)) toInt_add_of_fitsSigned
  obtain ⟨hsub, hsubOv⟩ := finish_or_ov s hrd (subOverflow_iff (s.readGpr rs) (s.readGpr rt)) toInt_sub_of_fitsSigned
  exact ⟨hadd, haddOv, hsub, hsubOv⟩

/-- Settles O29: the sum and the difference of words are those modulo 2^32. -/
theorem unsignedAddAndSubWrap : Obligations.UnsignedAddAndSubWrap := by
  refine ⟨specialIs, specialIs, fun s rd rs rt hrd => ?_⟩
  rw [ofNat_add_mod, ofNat_sub_mod]
  exact ⟨finish_spec s _ hrd, finish_spec s _ hrd⟩

/-- Settles O30, by the bits of each operation. -/
theorem registerLogicIsBitwise : Obligations.RegisterLogicIsBitwise := by
  refine ⟨specialIs, specialIs, specialIs, specialIs, fun s rd rs rt hrd => ?_⟩
  exact ⟨finish_bits s hrd fun _ _ => BitVec.getLsbD_and, finish_bits s hrd fun _ _ => BitVec.getLsbD_or,
    finish_bits s hrd fun _ _ => BitVec.getLsbD_xor, finish_bits s hrd fun _ hj => getLsbD_nor _ _ hj⟩

/-- Settles O31, by the bits of each shift. -/
theorem immediateShiftsMoveBits : Obligations.ImmediateShiftsMoveBits := by
  refine ⟨specialIs, specialIs, specialIs, fun s rd rt n hrd _ => ?_⟩
  exact ⟨finish_bits s hrd fun _ hj => getLsbD_sll _ n hj, finish_bits s hrd fun j _ => getLsbD_srl _ n j,
    finish_bits s hrd fun _ hj => getLsbD_sra _ n hj⟩

/-- Settles O32: the amount is GPR[rs] modulo 32, and the bits are those of the immediate shifts. -/
theorem variableShiftsUseTheLowFiveBits : Obligations.VariableShiftsUseTheLowFiveBits := by
  refine ⟨specialIs, specialIs, specialIs, fun s rd rt rs hrd => ?_⟩
  rw [← shiftAmount_eq]
  exact ⟨finish_bits s hrd fun _ hj => getLsbD_sll _ _ hj, finish_bits s hrd fun j _ => getLsbD_srl _ _ j,
    finish_bits s hrd fun _ hj => getLsbD_sra _ _ hj⟩

/-- Settles O33: each comparison is exact, and the immediate is compared sign extended. -/
theorem setOnLessThanIsExact : Obligations.SetOnLessThanIsExact := by
  refine ⟨specialIs, specialIs, majorIs, majorIs, fun s d rs rt imm hd => ?_⟩
  rw [← sext16_toInt, ← sext16_toNat]
  exact ⟨finish_bit s hd (signedLt_iff _ _), finish_bit s hd (unsignedLt_iff _ _), finish_bit s hd (signedLt_iff _ _),
    finish_bit s hd (unsignedLt_iff _ _)⟩

/-- Settles O34: each is a move on its condition. -/
theorem conditionalMovesTestRt : Obligations.ConditionalMovesTestRt := by
  refine ⟨specialIs, specialIs, fun s rd rs rt hrd => ?_⟩
  obtain ⟨t, hmovn, honly, hretires, hwrites, hkeeps⟩ := finish_if s (s.readGpr rs) (s.readGpr rt ≠ 0) hrd
  obtain ⟨u, hmovz, honly', hretires', hwrites', hkeeps'⟩ := finish_if s (s.readGpr rs) (s.readGpr rt = 0) hrd
  exact ⟨t, u, hmovn, hmovz, honly, honly', hretires, hretires', fun h => ⟨hwrites h, hkeeps' h⟩,
    fun h => ⟨hkeeps (not_not.2 h), hwrites' h⟩⟩

end Sys2Proof.Machine
end

section
/-! The multiply, divide and HI/LO family (42_muldiv_hilo.md): the two halves of a product are the product, what the
quotient and the remainder of two words are in integers, and how an instruction that writes HI and LO ends. -/

namespace Sys2Proof.Machine

/-! ### Products (42_muldiv_hilo.md R221, R222) -/

/-- The two halves of 64 bits, read together, are the 64 bits. -/
theorem extractLsb'_high_append_low (p : BitVec 64) : p.extractLsb' 32 32 ++ p.extractLsb' 0 32 = p :=
  (BitVec.extractLsb'_append_extractLsb'_eq_extractLsb' rfl).trans BitVec.extractLsb'_eq_self

/-- The product of two signed words fits in 64 bits: it is at most 2^62 in size. -/
theorem toInt_ofInt_mul (a b : Word) : (BitVec.ofInt 64 (a.toInt * b.toInt)).toInt = a.toInt * b.toInt := by
  have hle : a.toInt * b.toInt ≤ 2 ^ (32 * 2 - 2) := BitVec.toInt_mul_toInt_le
  have hge : -2 ^ (32 * 2 - 2) ≤ a.toInt * b.toInt := BitVec.le_toInt_mul_toInt
  exact BitVec.toInt_ofInt_eq_self (by decide) (by omega) (by omega)

/-- The product of two unsigned words is less than 2^64. -/
theorem toNat_ofNat_mul (a b : Word) : (BitVec.ofNat 64 (a.toNat * b.toNat)).toNat = a.toNat * b.toNat :=
  (BitVec.toNat_ofNat _ _).trans (Nat.mod_eq_of_lt BitVec.toNat_mul_toNat_lt)

/-- A product goes into HI and LO, and nothing else changes. -/
theorem finishProduct_spec (s : State) (p : BitVec 64) :
    ∃ t, s.finishProduct p = .next t ∧ t.hi ++ t.lo = p ∧ OnlyHiLo s t ∧ Retires s t :=
  ⟨_, rfl, extractLsb'_high_append_low p, setHiLo_spec s _ _⟩

/-- Settles O35: HI and LO together are the 64-bit product, which is exact because it fits. -/
theorem productInHiLoIsExact : Obligations.ProductInHiLoIsExact := by
  refine ⟨specialIs, specialIs, fun s rs rt => ⟨?_, ?_⟩⟩
  · obtain ⟨t, hnext, hproduct, hframe⟩ := finishProduct_spec s _
    exact ⟨t, hnext, hproduct ▸ toInt_ofInt_mul _ _, hframe⟩
  · obtain ⟨t, hnext, hproduct, hframe⟩ := finishProduct_spec s _
    exact ⟨t, hnext, hproduct ▸ toNat_ofNat_mul _ _, hframe⟩

/-! ### Quotients and remainders (42_muldiv_hilo.md R223, R224) -/

/-- The quotient toward zero, cut to 32 bits, is the word division. -/
theorem ofInt_tdiv (a b : Word) : BitVec.ofInt 32 (a.toInt.tdiv b.toInt) = a.sdiv b :=
  BitVec.eq_of_toInt_eq ((BitVec.toInt_ofInt _).trans (BitVec.toInt_sdiv a b).symm)

/-- What the quotient toward zero leaves of the dividend is the word remainder. -/
theorem ofInt_sub_tdiv_mul (a b : Word) : BitVec.ofInt 32 (a.toInt - a.toInt.tdiv b.toInt * b.toInt) = a.srem b := by
  rw [Int.mul_comm, ← Int.tmod_def, ← BitVec.toInt_srem, BitVec.ofInt_toInt]

theorem sdiv_mul_add_srem {a b : Word} (h : ¬(a = 0x80000000 ∧ b = 0xFFFFFFFF)) :
    a.toInt = (a.sdiv b).toInt * b.toInt + (a.srem b).toInt := by
  have hquotient : (a.sdiv b).toInt = a.toInt.tdiv b.toInt := BitVec.toInt_sdiv_of_ne_or_ne a b (not_and_or.1 h)
  rw [hquotient, BitVec.toInt_srem, Int.tdiv_mul_add_tmod]

theorem natAbs_srem_lt (a : Word) {b : Word} (h : b ≠ 0) : (a.srem b).toInt.natAbs < b.toInt.natAbs := by
  have hb : b.toInt ≠ 0 := fun hzero => h (BitVec.eq_of_toInt_eq hzero)
  rw [BitVec.toInt_srem, Int.natAbs_tmod]
  exact Nat.mod_lt _ (Int.natAbs_pos.2 hb)

/-- A remainder that is not 0 has the dividend's sign. -/
theorem srem_eq_zero_or_neg_iff (a b : Word) : (a.srem b).toInt = 0 ∨ ((a.srem b).toInt < 0 ↔ a.toInt < 0) := by
  have hsign := Int.sign_tmod a.toInt b.toInt
  rw [← BitVec.toInt_srem] at hsign
  split at hsign
  · exact .inl (Int.sign_eq_zero_iff_zero.1 hsign)
  · exact .inr (by rw [← Int.sign_eq_neg_one_iff_neg, hsign, Int.sign_eq_neg_one_iff_neg])

theorem toNat_udiv_mul_add_umod (a b : Word) : a.toNat = (a / b).toNat * b.toNat + (a % b).toNat := by
  rw [BitVec.toNat_udiv, BitVec.toNat_umod, Nat.div_add_mod']

/-- DIV by a divisor that is not 0 leaves the word remainder and the word quotient. -/
theorem execDiv_of_ne_zero (s : State) (rs : Nat) {rt : Nat} (h : s.readGpr rt ≠ 0) :
    execDiv rs rt s =
      .next (s.setHiLo ((s.readGpr rs).srem (s.readGpr rt)) ((s.readGpr rs).sdiv (s.readGpr rt))).retire := by
  rw [← ofInt_tdiv, ← ofInt_sub_tdiv_mul]
  exact if_neg h

/-- DIVU by a divisor that is not 0 leaves the word remainder and the word quotient. -/
theorem execDivu_of_ne_zero (s : State) (rs : Nat) {rt : Nat} (h : s.readGpr rt ≠ 0) :
    execDivu rs rt s = .next (s.setHiLo (s.readGpr rs % s.readGpr rt) (s.readGpr rs / s.readGpr rt)).retire := by
  rw [BitVec.udiv_def, BitVec.umod_def]
  exact if_neg h

/-- Settles O36. The one signed quotient that does not fit is that of 0x80000000 by 0xFFFFFFFF. -/
theorem divideGivesQuotientAndRemainder : Obligations.DivideGivesQuotientAndRemainder := by
  refine ⟨specialIs, specialIs, fun s rs rt => ?_⟩
  by_cases h0 : s.readGpr rt = 0
  · obtain ⟨honly, hretires⟩ := setHiLo_spec s 0 0
    have hne : s.readGpr rt ≠ 0xFFFFFFFF := h0 ▸ by decide
    exact ⟨⟨_, if_pos h0, honly, hretires, fun _ => ⟨rfl, rfl⟩, fun _ h => absurd h hne, fun h => absurd h0 h⟩,
      ⟨_, if_pos h0, honly, hretires, fun _ => ⟨rfl, rfl⟩, fun h => absurd h0 h⟩⟩
  · constructor
    · obtain ⟨honly, hretires⟩ := setHiLo_spec s _ _
      refine ⟨_, execDiv_of_ne_zero s rs h0, honly, hretires, fun h => absurd h h0, fun hrs hrt => ?_, fun _ hfits => ?_⟩
      · rw [hrs, hrt]
        exact ⟨rfl, rfl⟩
      · exact ⟨sdiv_mul_add_srem hfits, natAbs_srem_lt _ h0, srem_eq_zero_or_neg_iff _ _⟩
    · obtain ⟨honly, hretires⟩ := setHiLo_spec s _ _
      exact ⟨_, execDivu_of_ne_zero s rs h0, honly, hretires, fun h => absurd h h0, fun _ =>
        ⟨toNat_udiv_mul_add_umod _ _, BitVec.umod_lt _ ((BitVec.pos_iff_ne_zero _).2 h0)⟩⟩

/-! ### HI/LO moves (42_muldiv_hilo.md R226 to R229) -/

/-- Settles O37: MFHI and MFLO write one register, MTHI and MTLO write back the half they keep. -/
theorem hiLoMovesCopy : Obligations.HiLoMovesCopy :=
  ⟨specialIs, specialIs, specialIs, specialIs, fun s _ rs hrd =>
    ⟨finish_spec s s.hi hrd, finish_spec s s.lo hrd, ⟨_, rfl, rfl, rfl, setHiLo_spec s (s.readGpr rs) s.lo⟩,
      ⟨_, rfl, rfl, rfl, setHiLo_spec s s.hi (s.readGpr rs)⟩⟩⟩

end Sys2Proof.Machine
end

section
/-! The traps, SYSCALL, BREAK and SYNC (43_trap_system.md): a trap takes Tr on its condition, and what the raise of SYSCALL
and BREAK sets. -/

namespace Sys2Proof.Machine

variable {s t : State}

/-! ### Conditional traps (43_trap_system.md R241 to R246) -/

theorem not_signedLt_iff (a b : Word) : (!signedLt a b) = true ↔ a.toInt ≥ b.toInt := by
  rw [Bool.not_eq_true', ← Bool.not_eq_true, signedLt_iff, not_lt]

theorem not_unsignedLt_iff (a b : Word) : (!unsignedLt a b) = true ↔ a.toNat ≥ b.toNat := by
  rw [Bool.not_eq_true', ← Bool.not_eq_true, unsignedLt_iff, not_lt]

/-- A trap whose comparison `holds` means `p`. -/
theorem trapIf_eq (s : State) {holds : Bool} {p : Prop} [Decidable p] (hp : holds = true ↔ p) :
    s.trapIf holds = .next (if p then s.raise .tr else s.retire) := by
  rw [apply_ite Host.Outcome.next]
  exact if_congr hp rfl rfl

/-- Settles O38: the six traps share `trapIf`, and the state without the trap is the retired one. -/
theorem trapsTakeTrExactlyWhenTheComparisonHolds : Obligations.TrapsTakeTrExactlyWhenTheComparisonHolds := by
  refine ⟨specialIs, specialIs, specialIs, specialIs, specialIs, specialIs, fun s rs rt code => ?_⟩
  have htne : exec (.tne rs rt code) s = .next (if s.readGpr rs = s.readGpr rt then s.retire else s.raise .tr) :=
    (trapIf_eq s bne_iff_ne).trans (congrArg _ (ite_not _ _ _))
  exact ⟨s.retire, retires_self s, onlyPc_retire s, trapIf_eq s beq_iff_eq, htne, trapIf_eq s (not_signedLt_iff _ _),
    trapIf_eq s (not_unsignedLt_iff _ _), trapIf_eq s (signedLt_iff _ _), trapIf_eq s (unsignedLt_iff _ _)⟩

/-! ### SYSCALL, BREAK and SYNC (43_trap_system.md R250 to R252) -/

/-- By the default HALT_CODES, an exception of a code that is none of them leaves `running` (60_exceptions.md R396). -/
theorem TakesException.running_of_default {e : ExcCode} (h : TakesException e s t)
    (he : e ∉ Config.default.haltCodes) (hc : s.cfg.haltCodes = Config.default.haltCodes) : t.running = s.running :=
  h.running.trans (if_neg (hc ▸ he))

/-- By the default HALT_CODES, an exception of one of them stops the core (60_exceptions.md R396). -/
theorem TakesException.stops_of_default {e : ExcCode} (h : TakesException e s t)
    (he : e ∈ Config.default.haltCodes) (hc : s.cfg.haltCodes = Config.default.haltCodes) : t.running = false :=
  h.running.trans (if_pos (hc ▸ he))

/-- Settles O39: SYSCALL and BREAK are the raise of their code, of which only Bp is a default HALT_CODE. -/
theorem syscallBreakAndSync : Obligations.SyscallBreakAndSync := by
  refine ⟨specialIs, specialIs, specialIs, fun s _ => ?_⟩
  have hsys := takesException_raise s .sys
  have hbp := takesException_raise s .bp
  exact ⟨⟨rfl, hsys.excCode, hsys.epc, hsys.exl, hsys.pc, hsys.running_of_default (by decide)⟩,
    ⟨rfl, hbp.excCode, hbp.epc, hbp.exl, hbp.pc, hbp.stops_of_default (by decide)⟩,
    ⟨s.retire, rfl, onlyPc_retire s, retires_self s⟩⟩

end Sys2Proof.Machine
end

section
/-! The immediate arithmetic and logic family (44_itype_alu.md): what the sign-extended immediate adds, what the
zero-extended immediate has as bits, and LUI's operand as a number. -/

namespace Sys2Proof.Machine

/-! ### Sums with the sign-extended immediate (44_itype_alu.md R261, R262) -/

/-- The exact sum of two signed numbers, cut to 32 bits, is the sum of words. -/
theorem ofInt_add_immediate (a : Word) (imm : BitVec 16) : BitVec.ofInt 32 (a.toInt + imm.toInt) = a + sext16 imm := by
  rw [← sext16_toInt, BitVec.ofInt_add, BitVec.ofInt_toInt, BitVec.ofInt_toInt]

/-- Settles O40: ADDI ends as ADD does, with the sign-extended immediate in the place of GPR[rt]. -/
theorem addImmediateGivesTheExactSumOrTakesOv : Obligations.AddImmediateGivesTheExactSumOrTakesOv := by
  refine ⟨majorIs, fun s rt rs imm hrt => ?_⟩
  rw [ofInt_add_immediate, ← sext16_toInt]
  obtain ⟨hfit, hov⟩ := finish_or_ov s hrt (addOverflow_iff (s.readGpr rs) (sext16 imm)) toInt_add_of_fitsSigned
  refine ⟨fun hfits => ?_, hov⟩
  obtain ⟨t, hnext, -, hframe⟩ := hfit hfits
  exact ⟨t, hnext, hframe⟩

/-! ### LUI (44_itype_alu.md R268) -/

/-- The immediate above sixteen zeros is the immediate times 65536. -/
theorem ofNat_mul_65536 (imm : BitVec 16) : BitVec.ofNat 32 (imm.toNat * 65536) = upper16 imm := by
  have happend : (upper16 imm).toNat = imm.toNat <<< 16 ||| 0 := BitVec.toNat_append imm 0#16
  have hshift : (upper16 imm).toNat = imm.toNat * 65536 := by rw [happend, Nat.or_zero, Nat.shiftLeft_eq]
  rw [← hshift, BitVec.ofNat_toNat, BitVec.setWidth_eq]

/-- Settles O41: each writes the one word its operands make. -/
theorem addiuWrapsAndLuiPlacesTheUpperHalf : Obligations.AddiuWrapsAndLuiPlacesTheUpperHalf := by
  refine ⟨majorIs, majorIs, fun s rt rs imm hrt => ?_⟩
  rw [ofInt_add_immediate, ofNat_mul_65536]
  exact ⟨finish_spec s _ hrt, finish_spec s _ hrt⟩

/-! ### Logic with the zero-extended immediate (44_itype_alu.md R263 to R265) -/

theorem getLsbD_zext16 (imm : BitVec 16) {j : Nat} (hj : j < 32) :
    (zext16 imm).getLsbD j = if j < 16 then imm.getLsbD j else false := by
  rw [zext16, BitVec.getLsbD_setWidth, decide_eq_true hj, Bool.true_and]
  split
  · rfl
  · exact BitVec.getLsbD_of_ge _ _ (by omega)

/-- Bit by bit, an operation on a word and the zero-extended immediate takes the immediate's bit in the low half and 0 in
the upper half. -/
theorem bit_op_zext16 (op : Bool → Bool → Bool) (b : Bool) (imm : BitVec 16) {j : Nat} (hj : j < 32) :
    op b ((zext16 imm).getLsbD j) = if j < 16 then op b (imm.getLsbD j) else op b false := by
  rw [getLsbD_zext16 imm hj, apply_ite (op b)]

theorem getLsbD_and_zext16 (a : Word) (imm : BitVec 16) {j : Nat} (hj : j < 32) :
    (a &&& zext16 imm).getLsbD j = if j < 16 then (a.getLsbD j && imm.getLsbD j) else false := by
  rw [BitVec.getLsbD_and, bit_op_zext16 and _ imm hj, Bool.and_false]

theorem getLsbD_or_zext16 (a : Word) (imm : BitVec 16) {j : Nat} (hj : j < 32) :
    (a ||| zext16 imm).getLsbD j = if j < 16 then (a.getLsbD j || imm.getLsbD j) else a.getLsbD j := by
  rw [BitVec.getLsbD_or, bit_op_zext16 or _ imm hj, Bool.or_false]

theorem getLsbD_xor_zext16 (a : Word) (imm : BitVec 16) {j : Nat} (hj : j < 32) :
    (a ^^^ zext16 imm).getLsbD j = if j < 16 then (a.getLsbD j ^^ imm.getLsbD j) else a.getLsbD j := by
  rw [BitVec.getLsbD_xor, bit_op_zext16 xor _ imm hj, Bool.xor_false]

/-- Settles O42, by the bits of each operation. -/
theorem immediateLogicZeroExtends : Obligations.ImmediateLogicZeroExtends := by
  refine ⟨majorIs, majorIs, majorIs, fun s rt rs imm hrt => ?_⟩
  exact ⟨finish_bits s hrt fun _ hj => getLsbD_and_zext16 _ imm hj,
    finish_bits s hrt fun _ hj => getLsbD_or_zext16 _ imm hj, finish_bits s hrt fun _ hj => getLsbD_xor_zext16 _ imm hj⟩

end Sys2Proof.Machine
end

section
/-! The load and store family (45_load_store.md): which bytes each store writes, the bytes of the merged words under
UNALIGNED_LS = full, and how a load and a store end. -/

namespace Sys2Proof.Machine

variable {s : State} {rt : Nat} {a : Word}

/-! ### Loads (45_load_store.md R280 to R286) -/

/-- A load whose access gives `v` writes it to `rt`, and nothing else changes. -/
theorem finishLoad_some {o : Option Word} {v : Word} (hrt : rt < 32) (ho : o = some v) :
    ∃ t, s.finishLoad rt a o = .next t ∧ WritesGpr rt v s t ∧ OnlyGprs s t ∧ Retires s t :=
  ho ▸ finish_spec s v hrt

/-- A load that is not admitted takes AdEL (R281). -/
theorem finishLoad_none {o : Option Word} (ho : o = none) : s.finishLoad rt a o = .next (s.addressError .adel a) :=
  ho ▸ rfl

/-- Settles O44, width by width: the access rule of the load, extended by the mnemonic, where the access is admitted, and
AdEL where it is not. -/
theorem loadsReadMemoryOrTakeAdel : Obligations.LoadsReadMemoryOrTakeAdel := by
  refine ⟨majorIs, majorIs, majorIs, majorIs, majorIs, majorIs, fun s rt base off a hrt ha => ?_⟩
  obtain rfl : a = s.effAddr base off := ha.trans (ofInt_add_immediate _ off)
  refine ⟨fun h v hv => ?_, fun h => ?_, fun h v hv => ?_, fun h => ?_, fun h => ?_, fun h => ?_⟩
  · subst hv
    exact ⟨finishLoad_some hrt (load32_admits h), finishLoad_some hrt (load32_admits h)⟩
  · exact ⟨finishLoad_none (load32_not_admits h), finishLoad_none (load32_not_admits h)⟩
  · subst hv
    rw [BitVec.ofNat_toNat]
    exact ⟨finishLoad_some hrt (congrArg (Option.map sext16) (load16_admits h)),
      finishLoad_some hrt (congrArg (Option.map zext16) (load16_admits h))⟩
  · exact ⟨finishLoad_none (congrArg (Option.map sext16) (load16_not_admits h)),
      finishLoad_none (congrArg (Option.map zext16) (load16_not_admits h))⟩
  · rw [BitVec.ofNat_toNat]
    exact ⟨finishLoad_some hrt (congrArg (Option.map sext8) (load8_admits h)),
      finishLoad_some hrt (congrArg (Option.map zext8) (load8_admits h))⟩
  · exact ⟨finishLoad_none (congrArg (Option.map sext8) (load8_not_admits h)),
      finishLoad_none (congrArg (Option.map zext8) (load8_not_admits h))⟩

/-! ### Stores (45_load_store.md R290 to R292, R301) -/

/-- `m'` is `m` with the `n` bytes from address `a` on replaced by `f 0`, `f 1`, …. -/
structure Memory.Stores (a n : Nat) (f : Nat → Byte) (m m' : Memory) : Prop where
  outside : ∀ b, ¬(a ≤ b ∧ b < a + n) → m'.read b = m.read b
  bytes : ∀ k < n, m'.read (a + k) = f k

theorem Memory.stores_writeWord {m : Memory} (hm : m.wf) (a : Nat) (v : Word) :
    Memory.Stores a 4 (fun k => v.extractLsb' (8 * (3 - k)) 8) m (m.writeWord a v) :=
  ⟨fun _ hb => Memory.read_writeWord_outside m v hb, fun _ hk => Memory.read_writeWord_byte hm a v hk⟩

/-- The bytes of the low half of a word are bytes of the word. -/
theorem extractLsb'_low_half (v : Word) (k : Nat) :
    (v.extractLsb' 0 16).extractLsb' (8 * (1 - k)) 8 = v.extractLsb' (8 * (1 - k)) 8 := by
  apply BitVec.eq_of_getLsbD_eq
  intro i hi
  simp only [BitVec.getLsbD_extractLsb', hi, decide_true, Bool.true_and, Nat.zero_add,
    show 8 * (1 - k) + i < 16 by omega]

theorem Memory.stores_writeHalf {m : Memory} (hm : m.wf) (a : Nat) (v : Word) :
    Memory.Stores a 2 (fun k => v.extractLsb' (8 * (1 - k)) 8) m (m.writeHalf a (v.extractLsb' 0 16)) :=
  ⟨fun _ hb => Memory.read_writeHalf_outside m _ hb,
    fun _ hk => (Memory.read_writeHalf_byte hm a _ hk).trans (extractLsb'_low_half v _)⟩

theorem Memory.stores_write {m : Memory} (hm : m.wf) (a : Nat) (v : Byte) :
    Memory.Stores a 1 (fun _ => v) m (m.write a v) :=
  ⟨fun _ hb => Memory.read_write_of_ne m v (by omega), fun k hk => by
    rw [Nat.lt_one_iff.1 hk]; exact Memory.read_write_self hm a v⟩

/-- A store that is performed replaces its bytes, and nothing else changes. -/
theorem finishStore_some {o : Option State} {m : Memory} {q n : Nat} {f : Nat → Byte} (ho : o = some (s.setMem m))
    (hm : Memory.Stores q n f s.mem m) :
    ∃ t, s.finishStore a o = .next t ∧ KeepsGprs s t ∧ KeepsHiLo s t ∧ KeepsCp0Tlb s t ∧ KeepsRun s t ∧ Retires s t ∧
      KeepsMemOutside q n s t ∧ ∀ k < n, t.readByte (q + k) = f k := by
  subst ho
  exact ⟨_, rfl, fun _ => rfl, ⟨rfl, rfl⟩, ⟨rfl, rfl⟩, ⟨rfl, rfl⟩, retires_retire _ _ rfl rfl rfl, hm.outside, hm.bytes⟩

/-- The same with `v` written to `rt` after the store (R301). -/
theorem finishStore_some_writeGpr {o : Option State} {m : Memory} {q n : Nat} {f : Nat → Byte} {v : Word} (hrt : rt < 32)
    (ho : o = some (s.setMem m)) (hm : Memory.Stores q n f s.mem m) :
    ∃ t, s.finishStore a (o.map (·.writeGpr rt v)) = .next t ∧ WritesGpr rt v s t ∧ KeepsHiLo s t ∧ KeepsCp0Tlb s t ∧
      KeepsRun s t ∧ Retires s t ∧ KeepsMemOutside q n s t ∧ ∀ k < n, t.readByte (q + k) = f k := by
  subst ho
  exact ⟨_, rfl, writesGpr_writeGpr s _ v hrt fun _ => rfl, ⟨rfl, rfl⟩, ⟨rfl, rfl⟩, ⟨rfl, rfl⟩,
    retires_retire _ _ rfl rfl rfl, hm.outside, hm.bytes⟩

/-- A store that is not admitted takes AdES (R281). -/
theorem finishStore_none {o : Option State} (ho : o = none) : s.finishStore a o = .next (s.addressError .ades a) :=
  ho ▸ rfl

/-- Settles O45, width by width: the bytes of the store where the access is admitted, and AdES where it is not. -/
theorem storesWriteTheirBytesOrTakeAdes : Obligations.StoresWriteTheirBytesOrTakeAdes := by
  refine ⟨majorIs, majorIs, majorIs, majorIs, fun s rt base off a hm hrt ha => ?_⟩
  subst ha
  refine ⟨(ofInt_add_immediate _ off).symm, fun h => ?_, fun h => ?_, fun h => ?_, fun h => ?_, fun h => ?_, fun h => ?_⟩
  · have hword := Memory.stores_writeWord hm (s.effAddr base off).toNat (s.readGpr rt)
    exact ⟨finishStore_some (store32_admits _ h) hword, finishStore_some_writeGpr hrt (store32_admits _ h) hword⟩
  · exact ⟨finishStore_none (store32_not_admits _ h),
      finishStore_none (congrArg (Option.map (·.writeGpr rt 1)) (store32_not_admits _ h))⟩
  · exact finishStore_some (store16_admits _ h) (Memory.stores_writeHalf hm _ _)
  · exact finishStore_none (store16_not_admits _ h)
  · obtain ⟨t, hnext, hgprs, hhilo, hcp0, hrun, hretires, houtside, hbyte⟩ :=
      finishStore_some (store8_admits _ h) (Memory.stores_write hm _ _)
    exact ⟨t, hnext, hgprs, hhilo, hcp0, hrun, hretires, houtside, hbyte 0 Nat.zero_lt_one⟩
  · exact finishStore_none (store8_not_admits _ h)

/-! ### The unaligned word parts under `stub` (45_load_store.md R294) -/

/-- Settles O46: each of the four retires and does nothing else. -/
theorem unalignedStubsOnlyMovePc : Obligations.UnalignedStubsOnlyMovePc := by
  refine ⟨majorIs, majorIs, majorIs, majorIs, fun s rt base off hstub => ?_⟩
  refine ⟨s.retire, retires_self s, onlyPc_retire s, ?_, ?_, ?_, ?_⟩
  · simp only [exec, execLwl, hstub]
  · simp only [exec, execLwr, hstub]
  · simp only [exec, execSwl, hstub]
  · simp only [exec, execSwr, hstub]

/-! ### The aligned word (45_load_store.md R295) -/

/-- The mask of `alignedAddr` clears the two low bits. -/
theorem alignedAddr_eq_shiftLeft (a : Word) : alignedAddr a = (a >>> 2) <<< 2 := by
  have hmask : ∀ j < 32, (0xFFFFFFFC : Word).getLsbD j = decide (2 ≤ j) := by decide
  refine BitVec.eq_of_getLsbD_eq fun j hj => ?_
  rw [alignedAddr, BitVec.getLsbD_and, hmask j hj, getLsbD_sll _ 2 hj, BitVec.getLsbD_ushiftRight]
  by_cases h : 2 ≤ j
  · simp [h, Nat.add_sub_cancel' h]
  · simp [h]

theorem alignedAddr_toNat (a : Word) : (alignedAddr a).toNat = 4 * (a.toNat / 4) := by
  have ha : a.toNat < 2 ^ 32 := a.isLt
  rw [alignedAddr_eq_shiftLeft, BitVec.toNat_shiftLeft, BitVec.toNat_ushiftRight, Nat.shiftRight_eq_div_pow,
    Nat.shiftLeft_eq]
  omega

theorem byteOffset_eq (a : Word) : byteOffset a = a.toNat % 4 := BitVec.extractLsb'_toNat 0 2 a

theorem admits_alignedAddr_iff (s : State) (a : Word) :
    s.admits (alignedAddr a) 4 ↔ 4 * (a.toNat / 4) + 3 < s.cfg.memSize := by
  rw [State.admits, alignedAddr_toNat]
  omega

theorem load32_alignedAddr (h : 4 * (a.toNat / 4) + 3 < s.cfg.memSize) :
    s.load32 (alignedAddr a) = some (s.mem.readWord (4 * (a.toNat / 4))) :=
  alignedAddr_toNat a ▸ if_pos ((admits_alignedAddr_iff s a).2 h)

theorem store32_alignedAddr (v : Word) (h : 4 * (a.toNat / 4) + 3 < s.cfg.memSize) :
    s.store32 (alignedAddr a) v = some (s.setMem (s.mem.writeWord (4 * (a.toNat / 4)) v)) :=
  alignedAddr_toNat a ▸ store32_admits v ((admits_alignedAddr_iff s a).2 h)

theorem not_admits_alignedAddr (h : s.cfg.memSize ≤ 4 * (a.toNat / 4) + 3) : ¬s.admits (alignedAddr a) 4 :=
  fun hadmits => Nat.not_lt.2 h ((admits_alignedAddr_iff s a).1 hadmits)

theorem extractLsb'_low_byte {n : Nat} (x : BitVec n) (y : Byte) : (x ++ y).extractLsb' 0 8 = y :=
  (BitVec.extractLsb'_append_eq_of_add_le le_rfl).trans BitVec.extractLsb'_eq_self

theorem extractLsb'_above_byte {n : Nat} (x : BitVec n) (y : Byte) (i : Nat) :
    (x ++ y).extractLsb' (i + 8) 8 = x.extractLsb' i 8 := by
  rw [BitVec.extractLsb'_append_eq_of_le (Nat.le_add_left 8 i), Nat.add_sub_cancel]

/-- Byte `j` of the word at `q`, the least significant first (20_memory.md R82). -/
theorem Memory.extractLsb'_readWord (m : Memory) (q : Nat) {j : Nat} (hj : j < 4) :
    (m.readWord q).extractLsb' (8 * j) 8 = m.read (q + (3 - j)) := by
  interval_cases j
  · exact extractLsb'_low_byte _ _
  · exact (extractLsb'_above_byte _ _ 0).trans (extractLsb'_low_byte _ _)
  · exact (extractLsb'_above_byte _ _ 8).trans ((extractLsb'_above_byte _ _ 0).trans (extractLsb'_low_byte _ _))
  · exact (extractLsb'_above_byte _ _ 16).trans ((extractLsb'_above_byte _ _ 8).trans
      ((extractLsb'_above_byte _ _ 0).trans BitVec.extractLsb'_eq_self))

/-! ### Bytes of shifted words and of the masks of R295 -/

theorem extractLsb'_shiftLeft_bytes (v : Word) (n : Nat) {j : Nat} (hj : j < 4) :
    (v <<< (8 * n)).extractLsb' (8 * j) 8 = if n ≤ j then v.extractLsb' (8 * (j - n)) 8 else 0 := by
  apply BitVec.eq_of_getLsbD_eq
  intro i hi
  split
  · simp only [BitVec.getLsbD_extractLsb', hi, decide_true, Bool.true_and, BitVec.getLsbD_shiftLeft,
      show 8 * j + i < 32 by omega, show ¬8 * j + i < 8 * n by omega, decide_false, Bool.not_false,
      show 8 * j + i - 8 * n = 8 * (j - n) + i by omega]
  · simp [show 8 * j + i < 8 * n by omega]

theorem extractLsb'_ushiftRight_bytes (v : Word) (n j : Nat) :
    (v >>> (8 * n)).extractLsb' (8 * j) 8 = v.extractLsb' (8 * (j + n)) 8 := by
  apply BitVec.eq_of_getLsbD_eq
  intro i hi
  simp only [BitVec.getLsbD_extractLsb', hi, decide_true, Bool.true_and, BitVec.getLsbD_ushiftRight,
    show 8 * n + (8 * j + i) = 8 * (j + n) + i by omega]

/-- There is no byte above byte 3. -/
theorem extractLsb'_of_four_le (v : Word) {j : Nat} (hj : 4 ≤ j) : v.extractLsb' (8 * j) 8 = 0 := by
  apply BitVec.eq_of_getLsbD_eq
  intro i _
  simp [BitVec.getLsbD_of_ge v (8 * j + i) (by omega)]

/-- The mask of the low `n` bytes. -/
theorem extractLsb'_lowBytes : ∀ n < 5, ∀ j < 4,
    ((1#32 <<< (8 * n)) - 1).extractLsb' (8 * j) 8 = if j < n then BitVec.allOnes 8 else 0 := by decide

/-- Its complement. -/
theorem extractLsb'_not_lowBytes : ∀ n < 5, ∀ j < 4,
    (~~~((1#32 <<< (8 * n)) - 1)).extractLsb' (8 * j) 8 = if j < n then 0 else BitVec.allOnes 8 := by decide

/-- LWL's merge: the upper bytes from memory, the lower ones kept (R295). -/
theorem extractLsb'_mergeLwl (w r : Word) {b j : Nat} (hb : b < 4) (hj : j < 4) :
    (mergeLwl w r b).extractLsb' (8 * j) 8 =
      if b ≤ j then w.extractLsb' (8 * (j - b)) 8 else r.extractLsb' (8 * j) 8 := by
  rw [mergeLwl, BitVec.extractLsb'_or, BitVec.extractLsb'_and, extractLsb'_shiftLeft_bytes w b hj,
    extractLsb'_lowBytes b (by omega) j hj]
  by_cases h : b ≤ j
  · simp [h, Nat.not_lt.2 h]
  · simp [h, Nat.lt_of_not_le h, -BitVec.reduceAllOnes]

/-- LWR's merge: the lower bytes from memory, the upper ones kept (R295). -/
theorem extractLsb'_mergeLwr (w r : Word) {b j : Nat} (hb : b < 4) (hj : j < 4) :
    (mergeLwr w r b).extractLsb' (8 * j) 8 =
      if j ≤ b then w.extractLsb' (8 * (3 - (b - j))) 8 else r.extractLsb' (8 * j) 8 := by
  rw [mergeLwr, BitVec.extractLsb'_or, BitVec.extractLsb'_and, extractLsb'_ushiftRight_bytes,
    extractLsb'_not_lowBytes (b + 1) (by omega) j hj]
  by_cases h : j ≤ b
  · simp [h, Nat.lt_succ_of_le h, show j + (3 - b) = 3 - (b - j) by omega]
  · simp [h, extractLsb'_of_four_le w (show 4 ≤ j + (3 - b) by omega), -BitVec.reduceAllOnes]

/-- What SWR stores is LWL's merge with register and memory exchanged, and the place counted from the other end. -/
theorem mergeSwr_eq_mergeLwl (w r : Word) (b : Nat) : mergeSwr w r b = mergeLwl r w (3 - b) := rfl

/-- What SWL stores is LWR's merge with register and memory exchanged, and the place counted from the other end. -/
theorem mergeSwl_eq_mergeLwr (w r : Word) {b : Nat} (hb : b < 4) : mergeSwl w r b = mergeLwr r w (3 - b) := by
  interval_cases b <;> rfl

/-! ### The unaligned word parts under `full` (45_load_store.md R295 to R299) -/

section
variable (base : Nat) (off : BitVec 16) (hfull : s.cfg.unalignedLs = .full) (ha : a = s.effAddr base off)
include hfull ha

theorem exec_lwl_full : exec (.lwl rt base off) s =
    s.finishLoad rt a ((s.load32 (alignedAddr a)).map fun w => mergeLwl w (s.readGpr rt) (a.toNat % 4)) := by
  simp only [exec, execLwl, hfull, ha, byteOffset_eq]

theorem exec_lwr_full : exec (.lwr rt base off) s =
    s.finishLoad rt a ((s.load32 (alignedAddr a)).map fun w => mergeLwr w (s.readGpr rt) (a.toNat % 4)) := by
  simp only [exec, execLwr, hfull, ha, byteOffset_eq]

theorem exec_swl_full : exec (.swl rt base off) s = s.finishStore a (s.store32 (alignedAddr a)
    (mergeLwr (s.readGpr rt) (s.mem.readWord (4 * (a.toNat / 4))) (3 - a.toNat % 4))) := by
  rw [← mergeSwl_eq_mergeLwr _ _ (Nat.mod_lt _ (by decide)), ← alignedAddr_toNat]
  simp only [exec, execSwl, hfull, ha, byteOffset_eq]

theorem exec_swr_full : exec (.swr rt base off) s = s.finishStore a (s.store32 (alignedAddr a)
    (mergeLwl (s.readGpr rt) (s.mem.readWord (4 * (a.toNat / 4))) (3 - a.toNat % 4))) := by
  rw [← mergeSwr_eq_mergeLwl, ← alignedAddr_toNat]
  simp only [exec, execSwr, hfull, ha, byteOffset_eq]

end

/-- A load of the aligned word, merged by `merge` into bytes `g 0` (the least significant) to `g 3`. -/
theorem finishLoad_merge {merge : Word → Word} {g : Nat → Byte} (hrt : rt < 32)
    (h : 4 * (a.toNat / 4) + 3 < s.cfg.memSize)
    (hmerge : ∀ j < 4, (merge (s.mem.readWord (4 * (a.toNat / 4)))).extractLsb' (8 * j) 8 = g j) :
    ∃ t v, s.finishLoad rt a ((s.load32 (alignedAddr a)).map merge) = .next t ∧ WritesGpr rt v s t ∧ OnlyGprs s t ∧
      Retires s t ∧ ∀ j < 4, v.extractLsb' (8 * j) 8 = g j := by
  obtain ⟨t, hnext, hwrites, honly, hretires⟩ :=
    finishLoad_some (a := a) hrt (congrArg (Option.map merge) (load32_alignedAddr h))
  exact ⟨t, _, hnext, hwrites, honly, hretires, hmerge⟩

/-- Settles O47: the bytes of the two merges, with the bytes of the aligned word read from memory. -/
theorem unalignedLoadsMergeBytes : Obligations.UnalignedLoadsMergeBytes := by
  intro s rt base off a q b hrt hfull ha hq hb
  subst hq hb
  have hb4 : a.toNat % 4 < 4 := Nat.mod_lt _ (by decide)
  rw [exec_lwl_full base off hfull ha, exec_lwr_full base off hfull ha]
  refine ⟨fun h => ⟨finishLoad_merge hrt h fun j hj => ?_, finishLoad_merge hrt h fun j hj => ?_⟩, fun h => ?_⟩
  · rw [extractLsb'_mergeLwl _ _ hb4 hj, Memory.extractLsb'_readWord _ _ (by omega)]
    rfl
  · rw [extractLsb'_mergeLwr _ _ hb4 hj, Memory.extractLsb'_readWord _ _ (by omega)]
    refine ite_congr rfl (fun hle => ?_) fun _ => rfl
    rw [Nat.sub_sub_self (by omega)]
    rfl
  · have hnone := load32_not_admits (not_admits_alignedAddr h)
    exact ⟨finishLoad_none (congrArg _ hnone), finishLoad_none (congrArg _ hnone)⟩

/-- A word stored at `q` that differs from the word there in the `n` bytes from place `lo` on alone. -/
theorem Memory.stores_writeWord_part {m : Memory} {q lo n : Nat} {f : Nat → Byte} {v : Word} (hm : m.wf)
    (hn : lo + n ≤ 4)
    (hv : ∀ k < 4, v.extractLsb' (8 * (3 - k)) 8 = if lo ≤ k ∧ k < lo + n then f (k - lo) else m.read (q + k)) :
    Memory.Stores (q + lo) n f m (m.writeWord q v) := by
  have hread (k : Nat) (hk : k < 4) := (Memory.read_writeWord_byte hm q v hk).trans (hv k hk)
  refine ⟨fun c hc => ?_, fun k hk => ?_⟩
  · by_cases hword : q ≤ c ∧ c < q + 4
    · obtain ⟨k, rfl⟩ := Nat.exists_eq_add_of_le hword.1
      rw [hread k (by omega), if_neg (by omega)]
    · exact Memory.read_writeWord_outside m v hword
  · rw [Nat.add_assoc, hread (lo + k) (by omega), if_pos (by omega), Nat.add_sub_cancel_left]

/-- SWL's bytes: the most significant `4 - b` of the register, from place `b` of the word on (R295). -/
theorem Memory.stores_mergeLwr {m : Memory} (hm : m.wf) (q : Nat) (r : Word) {b : Nat} (hb : b < 4) :
    Memory.Stores (q + b) (4 - b) (fun k => r.extractLsb' (8 * (3 - k)) 8) m
      (m.writeWord q (mergeLwr r (m.readWord q) (3 - b))) := by
  refine Memory.stores_writeWord_part hm (by omega) fun k hk => ?_
  rw [extractLsb'_mergeLwr _ _ (by omega) (by omega), Memory.extractLsb'_readWord _ _ (by omega),
    Nat.sub_sub_self (by omega)]
  exact if_congr (by omega) (by rw [show 3 - b - (3 - k) = k - b by omega]) rfl

/-- SWR's bytes: the least significant `b + 1` of the register, from the start of the word on (R295). -/
theorem Memory.stores_mergeLwl {m : Memory} (hm : m.wf) (q : Nat) (r : Word) {b : Nat} (hb : b < 4) :
    Memory.Stores q (b + 1) (fun k => r.extractLsb' (8 * (b - k)) 8) m
      (m.writeWord q (mergeLwl r (m.readWord q) (3 - b))) := by
  refine Memory.stores_writeWord_part (lo := 0) hm (by omega) fun k hk => ?_
  rw [extractLsb'_mergeLwl _ _ (by omega) (by omega), Memory.extractLsb'_readWord _ _ (by omega),
    Nat.sub_sub_self (by omega)]
  exact if_congr (by omega) (by rw [show 3 - k - (3 - b) = b - k by omega]; rfl) rfl

/-- Settles O48: each stores the aligned word with its part of the register merged in. -/
theorem unalignedStoresWritePartOfTheWord : Obligations.UnalignedStoresWritePartOfTheWord := by
  intro s rt base off a q b hm hfull ha hq hb
  subst hq hb
  have hb4 : a.toNat % 4 < 4 := Nat.mod_lt _ (by decide)
  rw [exec_swl_full base off hfull ha, exec_swr_full base off hfull ha]
  refine ⟨fun h => ⟨?_, ?_⟩, fun h => ?_⟩
  · have hbytes := Memory.stores_mergeLwr hm (4 * (a.toNat / 4)) (s.readGpr rt) hb4
    rw [Nat.div_add_mod] at hbytes
    exact finishStore_some (store32_alignedAddr _ h) hbytes
  · simp only [← Nat.lt_succ_iff]
    exact finishStore_some (store32_alignedAddr _ h) (Memory.stores_mergeLwl hm _ _ hb4)
  · have hadmits := not_admits_alignedAddr h
    exact ⟨finishStore_none (store32_not_admits _ hadmits), finishStore_none (store32_not_admits _ hadmits)⟩

end Sys2Proof.Machine
end

section
/-! The branch and jump family (46_branch_jump.md): the targets as numbers and as fields, and how a branch and a linking
branch end outside a delay slot. -/

namespace Sys2Proof.Machine

variable {s : State}

/-! ### REGIMM encodings (30_encoding.md R121) -/

theorem decodeWord_of_regimm {w : Word} (h : opOf w = 1) : decodeWord w = decodeRegimm w := by
  simp only [decodeWord, h]

/-- An op 0x01 word decodes by the arm of `decodeRegimm` for its `rt`; the premise is that arm, which `simp` reads off. -/
theorem regimmIs {rt : Nat} {mk : Word → Instr}
    (harm : ∀ w, rtOf w = rt → decodeRegimm w = .ok (mk w) := by intro w h; simp only [decodeRegimm, h]) :
    RegimmIs rt mk :=
  fun w hop hrt => (decodeWord_of_regimm hop).trans (harm w hrt)

/-! ### Conditional branches (46_branch_jump.md R310) -/

/-- A shift by two places is a product by 4, so the target is the sum of integers cut to 32 bits. -/
theorem ofInt_branchTarget (pc : Word) (off : BitVec 16) :
    BitVec.ofInt 32 (pc.toInt + 4 + 4 * off.toInt) = branchTargetOf pc off := by
  rw [branchTargetOf, BitVec.shiftLeft_eq_mul_twoPow, BitVec.mul_comm, ← sext16_toInt, BitVec.ofInt_add,
    BitVec.ofInt_add, BitVec.ofInt_mul, BitVec.ofInt_toInt, BitVec.ofInt_toInt]
  rfl

/-- A branch whose condition `taken` means `p`, with the answer `t` of its delayed transfer. -/
theorem branchIf_eq {t : State} {off : BitVec 16} (hdelay : s.delayTo (branchTargetOf s.pc off) = .next t)
    {taken : Bool} {p : Prop} [Decidable p] (hp : taken = true ↔ p) :
    s.branchIf taken off = .next (if p then t else s.retire) := by
  rw [apply_ite Host.Outcome.next, ← hdelay]
  exact if_congr hp rfl rfl

/-- The two ends of a branch outside a delay slot, whatever its condition. -/
theorem branchIf_spec (h : s.inDelay = false) (off : BitVec 16) :
    ∃ t u, OnlyPc s t ∧ DelaysTo (BitVec.ofInt 32 (s.pc.toInt + 4 + 4 * off.toInt)) s t ∧ OnlyPc s u ∧ Retires s u ∧
      ∀ {taken : Bool} {p : Prop} [Decidable p], (taken = true ↔ p) →
        s.branchIf taken off = .next (if p then t else u) := by
  obtain ⟨t, hdelay, honly, hdelays⟩ := delayTo_spec s (branchTargetOf s.pc off) h
  rw [ofInt_branchTarget]
  exact ⟨t, s.retire, honly, hdelays, onlyPc_retire s, retires_self s, branchIf_eq hdelay⟩

/-- The two ends of a linking branch outside a delay slot: the link is written in both (R311). -/
theorem linkBranchIf_spec (h : s.inDelay = false) (off : BitVec 16) :
    ∃ t u, WritesGpr 31 (s.pc + 8) s t ∧ OnlyGprs s t ∧ DelaysTo (BitVec.ofInt 32 (s.pc.toInt + 4 + 4 * off.toInt)) s t ∧
      WritesGpr 31 (s.pc + 8) s u ∧ OnlyGprs s u ∧ Retires s u ∧
      ∀ {taken : Bool} {p : Prop} [Decidable p], (taken = true ↔ p) →
        (s.writeGpr 31 (linkOf s.pc)).branchIf taken off = .next (if p then t else u) := by
  obtain ⟨t, hdelay, hwrites, honly, hdelays⟩ :=
    link_delayTo_spec s (n := 31) (linkOf s.pc) (branchTargetOf s.pc off) (by decide) h
  obtain ⟨u, hfinish, hwrites', honly', hretires⟩ := finish_spec s (n := 31) (linkOf s.pc) (by decide)
  obtain rfl : (s.writeGpr 31 (linkOf s.pc)).retire = u := Host.Outcome.next.inj hfinish
  rw [ofInt_branchTarget]
  exact ⟨t, _, hwrites, honly, hdelays, hwrites', honly', hretires, branchIf_eq hdelay⟩

/-- Settles O49: BNE takes BEQ's branch on the opposite condition. -/
theorem equalityBranches : Obligations.EqualityBranches := by
  refine ⟨majorIs, majorIs, fun s rs rt off h => ?_⟩
  obtain ⟨t, u, honly, hdelays, honly', hretires, hbranch⟩ := branchIf_spec h off
  exact ⟨t, u, honly, hdelays, honly', hretires, hbranch beq_iff_eq,
    (hbranch bne_iff_ne).trans (congrArg _ (ite_not _ _ _))⟩

/-- A word is negative when its bit 31 is set (R316). -/
theorem isNegative_iff_msb (a : Word) : isNegative a = true ↔ a.msb = true := by
  rw [isNegative_iff, BitVec.msb_eq_toInt, decide_eq_true_iff]

theorem not_isNegative_iff_not_msb (a : Word) : (!isNegative a) = true ↔ ¬a.msb = true := by
  rw [Bool.not_eq_true', ← Bool.not_eq_true, isNegative_iff_msb]

/-- Settles O50: BGEZ takes BLTZ's branch on the opposite sign. -/
theorem branchesAgainstZero : Obligations.BranchesAgainstZero := by
  refine ⟨majorIs, majorIs, regimmIs, regimmIs, fun s rs off h => ?_⟩
  obtain ⟨t, u, honly, hdelays, honly', hretires, hbranch⟩ := branchIf_spec h off
  exact ⟨t, u, honly, hdelays, honly', hretires, hbranch (not_isPositive_iff _), hbranch (isPositive_iff _),
    hbranch (isNegative_iff_msb _), (hbranch (not_isNegative_iff_not_msb _)).trans (congrArg _ (ite_not _ _ _))⟩

/-- Settles O51: the condition is of the state before the link, the branch of the state after it. -/
theorem linkingBranches : Obligations.LinkingBranches := by
  refine ⟨regimmIs, regimmIs, fun s rs off h => ?_⟩
  obtain ⟨t, u, hwrites, honly, hdelays, hwrites', honly', hretires, hbranch⟩ := linkBranchIf_spec h off
  exact ⟨t, u, hwrites, honly, hdelays, hwrites', honly', hretires, hbranch (isNegative_iff _),
    hbranch (not_isNegative_iff _)⟩

/-! ### Jumps (46_branch_jump.md R320 to R323) -/

/-- The masked region and the shifted field do not overlap, so their disjunction is the three parts side by side (R320). -/
theorem region_or_field (a : Word) (field : BitVec 26) :
    (a &&& 0xF0000000#32) ||| (field.setWidth 32 <<< 2) = a.extractLsb' 28 4 ++ field ++ 0#2 := by
  have hmask : ∀ j < 32, (0xF0000000#32).getLsbD j = decide (28 ≤ j) := by decide
  refine BitVec.eq_of_getLsbD_eq fun j hj => ?_
  rw [BitVec.getLsbD_or, BitVec.getLsbD_and, hmask j hj, getLsbD_sll _ 2 hj, BitVec.getLsbD_append,
    BitVec.getLsbD_append, BitVec.getLsbD_extractLsb', BitVec.getLsbD_setWidth]
  by_cases hzeros : j < 2
  · simp [hzeros, show ¬28 ≤ j by omega]
  · by_cases hfield : j < 28
    · simp [hzeros, show 2 ≤ j by omega, show ¬28 ≤ j by omega, show j - 2 < 26 by omega, show j - 2 < 32 by omega]
    · have hnone : field.getLsbD (j - 2) = false := BitVec.getLsbD_of_ge _ _ (by omega)
      simp [hzeros, hnone, show 28 ≤ j by omega, show ¬j - 2 < 26 by omega, show j - 2 - 26 < 4 by omega,
        show 28 + (j - 2 - 26) = j by omega]

theorem jumpTargetOf_eq_append (pc : Word) (field : BitVec 26) :
    jumpTargetOf pc field = (pc + 4).extractLsb' 28 4 ++ field ++ 0#2 := region_or_field (pc + 4) field

/-- Settles O52: the two jumps share their target, and JAL writes the link first. -/
theorem jumpsKeepTheRegionOfTheSlot : Obligations.JumpsKeepTheRegionOfTheSlot := by
  refine ⟨majorIs, majorIs, fun s field h => ?_⟩
  rw [← jumpTargetOf_eq_append]
  exact ⟨delayTo_spec s _ h, link_delayTo_spec s _ _ (by decide) h⟩

/-- What JALR jumps to: GPR[rs] after the link is written to `rd` (R323). -/
theorem readGpr_writeGpr_link (s : State) {rd : Nat} (rs : Nat) (hrd : rd < 32) :
    (s.writeGpr rd (linkOf s.pc)).readGpr rs = if rd = rs ∧ rd ≠ 0 then s.pc + 8 else s.readGpr rs := by
  rw [State.readGpr_writeGpr]
  exact if_congr (by rw [and_iff_left hrd, eq_comm]) rfl rfl

/-- Settles O53: JALR's target is GPR[rs] of the state with the link. -/
theorem registerJumps : Obligations.RegisterJumps := by
  refine ⟨specialIs, specialIs, fun s rd rs hrd h => ?_⟩
  rw [← readGpr_writeGpr_link s rs hrd]
  exact ⟨delayTo_spec s _ h, link_delayTo_spec s _ _ hrd h⟩

end Sys2Proof.Machine
end

section
/-! The CP0 family (47_cop0.md): the COP0 encodings, Random's cycle, what `CP0Read` and `CP0Write` do pair by pair, and how
the moves and ERET end. -/

namespace Sys2Proof.Machine

variable {c : Cp0} {s : State}

/-! ### COP0 encodings (30_encoding.md R122) -/

theorem decodeWord_of_cop0 {w : Word} (h : opOf w = 0x10) : decodeWord w = decodeCop0 w := by
  simp only [decodeWord, h]

theorem decodeCop0_of_co {w : Word} (h : rsOf w = 0x10) : decodeCop0 w = decodeCo w := by
  simp only [decodeCop0, h]

/-- An op 0x10 word decodes by the arm of `decodeCop0` for its `rs`; the premise is that arm, which `simp` reads off. -/
theorem cop0Is {rs : Nat} {mk : Word → Instr}
    (harm : ∀ w, rsOf w = rs → decodeCop0 w = .ok (mk w) := by intro w h; simp only [decodeCop0, h]) : Cop0Is rs mk :=
  fun w hop hrs => (decodeWord_of_cop0 hop).trans (harm w hrs)

/-- A CO word decodes by the arm of `decodeCo` for its `funct`. -/
theorem coIs {funct : Nat} {i : Instr}
    (harm : ∀ w, functOf w = funct → decodeCo w = .ok i := by intro w h; simp only [decodeCo, h]) : CoIs funct i :=
  fun w hop hrs hfunct => (decodeWord_of_cop0 hop).trans ((decodeCop0_of_co hrs).trans (harm w hfunct))

/-! ### Random (47_cop0.md R360) -/

/-- Settles O14: from Wired or below Random goes to the top entry, from above it by one down. -/
theorem randomStepCyclesAboveWired : Obligations.RandomStepCyclesAboveWired := by
  intro c n h1 hn
  have hstep := c.randomStep_random h1 hn
  refine ⟨fun hle => hstep.trans (if_pos hle), fun hlt => hstep.trans (if_neg hlt.not_ge), fun hwired hrandom => ?_,
    c.randomStep_others n⟩
  rw [hstep]
  split <;> omega

/-! ### MFC0 (47_cop0.md R341, R343) -/

/-- The pairs that name a CP0 register (10_state.md R33). -/
def cp0Pairs : List (Nat × Nat) :=
  [(0, 0), (1, 0), (2, 0), (3, 0), (4, 0), (5, 0), (6, 0), (8, 0), (9, 0), (10, 0), (11, 0), (12, 0), (13, 0), (14, 0),
    (15, 0), (15, 1), (16, 0), (16, 1), (17, 0), (18, 0), (19, 0), (20, 0), (30, 0)]

/-- `CP0Read` of a pair that is no register gives 0 (R341): every arm but the last is of a pair in the list. -/
theorem Cp0.read_of_not_mem (c : Cp0) {reg sel : Nat} (h : (reg, sel) ∉ cp0Pairs) : c.read reg sel = 0 := by
  unfold Cp0.read
  split
  case h_24 => rfl
  all_goals exact absurd (by decide) h

/-- Settles O54: MFC0 finishes with what `CP0Read` gives. -/
theorem mfc0ReadsTheNamedRegister : Obligations.Mfc0ReadsTheNamedRegister := by
  refine ⟨cop0Is, fun s rt rd sel hrt => finish_spec s (s.cp0.read rd sel) hrt,
    fun c => ⟨fun p hp => ?_, fun _ _ h => ?_⟩⟩
  · fin_cases hp <;> rfl
  · exact c.read_of_not_mem h

/-! ### What `CP0Write` leaves (47_cop0.md R342) -/

/-- The registers that `CP0Write(reg, sel, v)` can change: the one it names, with Random for Wired and Cause for Compare. -/
def cp0Writes (reg sel : Nat) : List (Nat × Nat) :=
  if (reg, sel) = (6, 0) then [(6, 0), (1, 0)] else if (reg, sel) = (11, 0) then [(11, 0), (13, 0)] else [(reg, sel)]

/-- A register that the write cannot change reads as before: in each row of the write it is untouched, or it is one of
the row's own. -/
theorem Cp0.read_write_of_not_mem (c : Cp0) (n : Nat) {reg sel : Nat} {q : Nat × Nat} (v : Word)
    (h : q ∉ cp0Writes reg sel) : (c.write n reg sel v).read q.1 q.2 = c.read q.1 q.2 := by
  by_cases hq : q ∈ cp0Pairs
  · unfold Cp0.write
    split
    all_goals fin_cases hq <;> first | rfl | simp [cp0Writes] at h
  · rw [Cp0.read_of_not_mem _ hq, Cp0.read_of_not_mem _ hq]

/-- A pair that no row of the write names discards it (R342). -/
theorem Cp0.write_of_not_mem (c : Cp0) (n : Nat) {reg sel : Nat} (v : Word)
    (h : (reg, sel) ∉ [(0, 0), (2, 0), (3, 0), (4, 0), (5, 0), (6, 0), (9, 0), (10, 0), (11, 0), (12, 0), (13, 0), (14, 0),
      (15, 1), (16, 0), (17, 0), (18, 0), (19, 0), (20, 0), (30, 0)]) : c.write n reg sel v = c := by
  unfold Cp0.write
  split
  case h_20 => rfl
  all_goals exact absurd (by decide) h

/-! ### Masked writes (10_state.md R31, 47_cop0.md R342) -/

/-- The registers with a plain write mask, each with it (R342). -/
def writeMasks : List ((Nat × Nat) × Word) :=
  [((2, 0), 0x3FFFFFFF#32), ((3, 0), 0x3FFFFFFF#32), ((4, 0), 0xFFFFFFFF#32), ((5, 0), 0x01FFE000#32),
    ((9, 0), 0xFFFFFFFF#32), ((10, 0), 0xFFFFE0FF#32), ((12, 0), 0xFFFFFFFF#32), ((13, 0), 0x00800300#32),
    ((14, 0), 0xFFFFFFFF#32), ((15, 1), 0xFFFFFFFF#32), ((16, 0), 0x00000007#32), ((17, 0), 0xFFFFFFFF#32),
    ((18, 0), 0xFFFFFFFF#32), ((19, 0), 0xFFFFFFFF#32), ((20, 0), 0xFFFFFFFF#32), ((30, 0), 0xFFFFFFFF#32)]

/-- None of them has a side effect. -/
theorem cp0Writes_of_masked {q : Nat × Nat} {W : Word} (hq : (q, W) ∈ writeMasks) : cp0Writes q.1 q.2 = [q] := by
  fin_cases hq <;> rfl

/-- Where the bits outside the mask are 0, the write leaves the masked value. -/
theorem maskWrite_of_zeros {old mask : Word} (h : old &&& ~~~mask = 0) (v : Word) : maskWrite old mask v = v &&& mask := by
  rw [maskWrite, h, BitVec.ofNat_eq_ofNat, BitVec.zero_or]

/-- A write through all ones leaves the value. -/
theorem maskWrite_ones (old v : Word) : maskWrite old 0xFFFFFFFF v = v :=
  (maskWrite_of_zeros BitVec.and_zero v).trans BitVec.and_allOnes

/-- Under the CP0 invariants every row of the table is a write through its mask: the rows that drop the old value are of
registers whose other bits are 0, or whose mask is all ones. The rows stand in the table's order. -/
theorem Cp0.Inv.read_write_masked {p : Config} (h : c.Inv p) (n : Nat) (v : Word) : ∀ m ∈ writeMasks,
    (c.write n m.1.1 m.1.2 v).read m.1.1 m.1.2 = maskWrite (c.read m.1.1 m.1.2) m.2 v := by
  have hones (old : Word) : v = maskWrite old 0xFFFFFFFF v := (maskWrite_ones old v).symm
  simp only [writeMasks, List.forall_mem_cons]
  exact ⟨(maskWrite_of_zeros h.entryLo0_zeros v).symm, (maskWrite_of_zeros h.entryLo1_zeros v).symm, hones c.context,
    (maskWrite_of_zeros h.pageMask_zeros v).symm, hones c.count, (maskWrite_of_zeros h.entryHi_zeros v).symm,
    hones c.status, rfl, hones c.epc, hones c.ebase, rfl, hones c.llAddr, hones c.watchLo, hones c.watchHi,
    hones c.xContext, hones c.errorEpc, List.forall_mem_nil _⟩

/-! ### Index, Wired and Compare (47_cop0.md R342) -/

/-- What Index and Wired receive: the low six bits, no further than the top entry. -/
theorem clampIdx_low_toNat {n : Nat} (hn : n ≤ 64) (v : Word) :
    (clampIdx n (v.extractLsb' 0 6)).toNat = min (v.toNat % 64) (n - 1) := by
  rw [clampIdx_toNat hn, BitVec.extractLsb'_toNat]
  rfl

/-- The mask a write to Compare puts on Cause clears TI and IP7 and no other bit. -/
theorem getLsbD_clear_timer (w : Word) (j : Nat) :
    (w &&& 0xBFFF7FFF).getLsbD j = if j = 30 ∨ j = 15 then false else w.getLsbD j := by
  have hmask : ∀ j < 32, (0xBFFF7FFF : Word).getLsbD j = !decide (j = 30 ∨ j = 15) := by decide
  rw [BitVec.getLsbD_and]
  by_cases hj : j < 32
  · rw [hmask j hj]
    split <;> simp [*]
  · simp [BitVec.getLsbD_of_ge w j (by omega)]

/-! ### Instructions that write CP0 or the TLB array -/

/-- The frame of an instruction that has outcome `next` and changes CP0 and the TLB array. -/
theorem updateCp0Tlb_spec (s : State) (c : Cp0) (l : List TlbEntry) :
    OnlyCp0Tlb s ((s.setTlb l).setCp0 c).retire ∧ Retires s ((s.setTlb l).setCp0 c).retire :=
  ⟨⟨fun _ => rfl, ⟨rfl, rfl⟩, fun _ => rfl, rfl, rfl⟩, retires_retire _ _ rfl rfl rfl⟩

/-- Settles O55: what MTC0 does to CP0 is `CP0Write`, row by row. -/
theorem mtc0WritesThroughTheMask : Obligations.Mtc0WritesThroughTheMask := by
  refine ⟨cop0Is, fun s rt reg sel hinv h1 hn => ?_⟩
  obtain ⟨⟨hgprs, hhilo, hmem, hrun⟩, hretires⟩ :=
    updateCp0Tlb_spec s (s.cp0.write s.cfg.tlbSize reg sel (s.readGpr rt)) s.tlb
  have hothers {q : Nat × Nat} (h : q ∉ cp0Writes reg sel) := s.cp0.read_write_of_not_mem s.cfg.tlbSize (s.readGpr rt) h
  refine ⟨_, rfl, hgprs, hhilo, hmem, hrun, rfl, hretires,
    fun W hW => ⟨hinv.read_write_masked _ _ _ hW, fun r k hne => ?_⟩, fun hindex => ?_, fun hwired => ?_, fun hcompare => ?_, s.cp0.write_of_not_mem _ _⟩
  · exact hothers (cp0Writes_of_masked hW ▸ fun hmem => hne (List.mem_singleton.1 hmem))
  · obtain ⟨rfl, rfl⟩ := Prod.mk.inj hindex
    refine ⟨congrArg (s.cp0.index &&& 0x80000000 ||| ·) ?_,
      fun r k hne => hothers fun hmem => hne (List.mem_singleton.1 hmem)⟩
    rw [← clampIdx_low_toNat hn, BitVec.ofNat_toNat, BitVec.setWidth_eq]
  · obtain ⟨rfl, rfl⟩ := Prod.mk.inj hwired
    exact ⟨clampIdx_low_toNat hn _, (BitVec.toNat_ofNat _ _).trans (Nat.mod_eq_of_lt (by omega)),
      fun r k hne => hothers hne⟩
  · obtain ⟨rfl, rfl⟩ := Prod.mk.inj hcompare
    have hcause := getLsbD_clear_timer s.cp0.cause
    exact ⟨rfl, hcause 30, hcause 15, fun j h30 h15 => (hcause j).trans (if_neg (by simp [h30, h15])),
      fun r k hne => hothers hne⟩

/-! ### ERET (47_cop0.md R346, 60_exceptions.md R398) -/

/-- Outside a delay slot ERET returns (R346). -/
theorem exec_eret (h : s.inDelay = false) :
    exec .eret s = .next { s with cp0 := s.cp0.eret, pc := s.cp0.eretTarget, inDelay := false } :=
  if_neg (by simp [h])

/-- Settles O56: `Cp0.eret` clears BD and one bit of Status, which ERL chooses with the return address. -/
theorem eretReturns : Obligations.EretReturns := by
  refine ⟨coIs, fun s h => ⟨_, exec_eret h, ⟨⟨rfl, rfl⟩, fun _ => rfl, ⟨rfl, rfl⟩, rfl, rfl⟩, fun _ => rfl, rfl,
    s.cp0.eret_cause 31, fun j hj => (s.cp0.eret_cause j).trans (if_neg hj), fun herl => ?_, fun herl => ?_,
    s.cp0.eret_others⟩⟩
  · have hstatus := s.cp0.eret_status
    simp only [herl, if_true] at hstatus
    exact ⟨if_pos herl, hstatus 2, fun j hj => (hstatus j).trans (if_neg hj)⟩
  · have hstatus := s.cp0.eret_status
    simp only [herl, Bool.false_eq_true, if_false] at hstatus
    exact ⟨if_neg (by simp [herl]), hstatus 1, fun j hj => (hstatus j).trans (if_neg hj)⟩

end Sys2Proof.Machine
end

section
/-! The TLB instructions (47_cop0.md): the probe's first match, and that the four registers packed from an entry are the ones
it was made of. -/

namespace Sys2Proof.Machine

variable {c : Cp0}

/-! ### TLBP (47_cop0.md R352) -/

theorem TlbEntry.hits_iff (e : TlbEntry) (c : Cp0) : e.hits c = true ↔
    e.vpn2 = c.entryHi.extractLsb' 13 19 ∧ (e.g = true ∨ e.asid = c.entryHi.extractLsb' 0 8) := by
  rw [TlbEntry.hits, Bool.and_eq_true, Bool.or_eq_true, beq_iff_eq, beq_iff_eq]
  rfl

/-- The probe's answer: the position of an entry that hits, where none before it does; or P alone, where none hits. -/
theorem probeResult_cases (l : List TlbEntry) (c : Cp0) :
    (∃ (i : Nat) (e : TlbEntry), l[i]? = some e ∧ probeResult l c = BitVec.ofNat 32 i ∧ e.hits c = true ∧
      ∀ (k : Nat) (f : TlbEntry), k < i → l[k]? = some f → ¬f.hits c = true) ∨
    (probeResult l c = 0x80000000 ∧ ∀ f ∈ l, ¬f.hits c = true) := by
  cases hfind : l.findIdx? fun e => e.hits c with
  | some i =>
    obtain ⟨hi, hhit, hfirst⟩ := List.findIdx?_eq_some_iff_getElem.1 hfind
    refine .inl ⟨i, l[i], List.getElem?_eq_getElem hi, by rw [probeResult, hfind], hhit, fun k f hk hf => ?_⟩
    obtain ⟨-, rfl⟩ := List.getElem?_eq_some_iff.1 hf
    exact hfirst k hk
  | none =>
    exact .inr ⟨by rw [probeResult, hfind], fun f hf => Bool.not_eq_true _ ▸ List.findIdx?_eq_none_iff.1 hfind f hf⟩

/-- A number below 64 in Index leaves P clear. -/
theorem getLsbD_31_ofNat {i : Nat} (h : i < 64) : (BitVec.ofNat 32 i).getLsbD 31 = false := by
  rw [BitVec.getLsbD_ofNat, Nat.testBit_lt_two_pow (by omega : i < 2 ^ 31), Bool.and_false]

/-- Settles O57: TLBP writes the probe's answer to Index. -/
theorem probeFindsTheFirstMatch : Obligations.ProbeFindsTheFirstMatch := by
  refine ⟨coIs, fun s hlen => ⟨_, rfl, onlyPc_retire s, retires_self s, rfl, ?_⟩⟩
  obtain ⟨i, e, he, hindex, hhit, hfirst⟩ | ⟨hindex, hmiss⟩ := probeResult_cases s.tlb s.cp0
  · obtain ⟨hvpn2, hasid⟩ := (e.hits_iff s.cp0).1 hhit
    have hi : i < s.tlb.length := (List.getElem?_eq_some_iff.1 he).1
    have hP : (probeResult s.tlb s.cp0).getLsbD 31 = false := hindex ▸ getLsbD_31_ofNat (by omega)
    exact .inl ⟨i, e, he, hindex, hP, hvpn2, hasid, fun k f hk hf hhits => hfirst k f hk hf ((f.hits_iff s.cp0).2 hhits)⟩
  · exact .inr ⟨hindex, fun f hf hhits => hmiss f hf ((f.hits_iff s.cp0).2 hhits)⟩

/-! ### Registers and entries (47_cop0.md R350, R351, R356; 90_conflicts.md C4) -/

/-- A field of a register whose bits under a mask are 0 is 0 where the mask covers it. -/
theorem extractLsb'_eq_zero {w mask : Word} (h : w &&& mask = 0) {lo n : Nat}
    (hm : mask.extractLsb' lo n = BitVec.allOnes n) : w.extractLsb' lo n = 0#n := by
  have h0 : w &&& mask = 0 &&& mask := h.trans BitVec.zero_and.symm
  rw [extractLsb'_congr h0 hm]
  exact BitVec.extractLsb'_zero

/-- A bit is a field of width 1. -/
theorem ofBool_getLsbD (w : Word) (i : Nat) : BitVec.ofBool (w.getLsbD i) = w.extractLsb' i 1 := by
  refine BitVec.eq_of_getLsbD_eq fun j hj => ?_
  obtain rfl : j = 0 := by omega
  simp [-BitVec.getLsbD_eq_getElem]

/-- PageMask as TLBR packs it is its field between zeros (R351). -/
theorem packMask_eq (m : BitVec 12) : (m.setWidth 32 <<< 13 : Word) = 0#7 ++ m ++ 0#13 := by
  refine BitVec.eq_of_getLsbD_eq fun j hj => ?_
  rw [getLsbD_sll _ 13 hj, BitVec.getLsbD_setWidth, BitVec.getLsbD_append, BitVec.getLsbD_append]
  by_cases hzeros : j < 13
  · simp [hzeros, show ¬13 ≤ j by omega]
  · by_cases hfield : j - 13 < 12
    · simp [hzeros, hfield, show 13 ≤ j by omega, show j - 13 < 32 by omega]
    · have hnone : m.getLsbD (j - 13) = false := BitVec.getLsbD_of_ge _ _ (by omega)
      simp [hzeros, hfield, hnone]

/-- An EntryLo register is packed again from its fields, when the bits above them are 0. -/
theorem packLo_fields {w : Word} (htop : w &&& 0xC0000000 = 0) (hpfn : w &&& 0x3C000000 = 0) :
    packLo (w.extractLsb' 6 20) (w.extractLsb' 3 3) (w.getLsbD 2) (w.getLsbD 1) (w.getLsbD 0) = w := by
  have h30 : w.extractLsb' 30 2 = 0#2 := extractLsb'_eq_zero htop (by decide)
  have h26 : w.extractLsb' 26 4 = 0#4 := extractLsb'_eq_zero hpfn (by decide)
  rw [packLo_eq, show 0#6 = 0#2 ++ 0#4 from rfl, ← h30, ← h26, ofBool_getLsbD, ofBool_getLsbD, ofBool_getLsbD]
  simp (disch := decide) only [BitVec.extractLsb'_append_extractLsb'_eq_extractLsb']
  exact BitVec.extractLsb'_eq_self

/-- EntryHi is packed again from the entry, when the bits between its fields are 0. -/
theorem Cp0.toEntry_hiWord (h : c.entryHi &&& 0x00001F00 = 0) : c.toEntry.hiWord = c.entryHi := by
  have h8 : c.entryHi.extractLsb' 8 5 = 0#5 := extractLsb'_eq_zero h (by decide)
  rw [TlbEntry.hiWord_eq, ← h8]
  simp (disch := decide) only [Cp0.toEntry, Cp0.vpn2, Cp0.asid, BitVec.extractLsb'_append_extractLsb'_eq_extractLsb']
  exact BitVec.extractLsb'_eq_self

/-- PageMask is packed again from its field, when the bits outside it are 0. -/
theorem packMask_field {w : Word} (h : w &&& 0xFE001FFF = 0) : (w.extractLsb' 13 12).setWidth 32 <<< 13 = w := by
  have h25 : w.extractLsb' 25 7 = 0#7 := extractLsb'_eq_zero h (by decide)
  have h0 : w.extractLsb' 0 13 = 0#13 := extractLsb'_eq_zero h (by decide)
  rw [packMask_eq, ← h25, ← h0]
  simp (disch := decide) only [BitVec.extractLsb'_append_extractLsb'_eq_extractLsb']
  exact BitVec.extractLsb'_eq_self

/-! ### TLBWI and TLBR (47_cop0.md R354, R356) -/

/-- TLBWI writes the TLB array alone, and with P = 1 it writes the array back. -/
theorem exec_tlbwi (s : State) : exec .tlbwi s =
    .next (s.setTlb (if s.cp0.indexP then s.tlb else s.tlb.set s.cp0.indexField s.cp0.toEntry)).retire := by
  simp only [exec, execTlbwi]
  split <;> rfl

/-- TLBR writes CP0 alone, and with P = 1 it writes CP0 back. -/
theorem exec_tlbr (s : State) : exec .tlbr s =
    .next (s.setCp0 (if s.cp0.indexP then s.cp0
      else s.cp0.fromEntry (s.tlb.getD s.cp0.indexField TlbEntry.zero))).retire := by
  simp only [exec, execTlbr]
  split <;> rfl

/-- Settles O58: the entry stored is `toEntry`, and the four registers read are `fromEntry` of the entry at Index. -/
theorem indexedTlbWriteAndRead : Obligations.IndexedTlbWriteAndRead := by
  refine ⟨coIs, coIs, fun s => ?_⟩
  obtain ⟨hwrite, hwriteRetires⟩ :=
    updateCp0Tlb_spec s s.cp0 (if s.cp0.indexP then s.tlb else s.tlb.set s.cp0.indexField s.cp0.toEntry)
  obtain ⟨hread, hreadRetires⟩ := updateCp0Tlb_spec s
    (if s.cp0.indexP then s.cp0 else s.cp0.fromEntry (s.tlb.getD s.cp0.indexField TlbEntry.zero)) s.tlb
  refine ⟨_, _, exec_tlbwi s, exec_tlbr s, hwriteRetires, hreadRetires, hwrite, hread, rfl, rfl,
    fun hP => ⟨if_pos hP, if_pos hP⟩, fun hP hlt => ?_⟩
  have hP : ¬s.cp0.indexP = true := by simp [hP]
  have hentry : s.tlb.getD s.cp0.indexField TlbEntry.zero = s.tlb[s.cp0.indexField] := by simp [hlt]
  simp only [if_neg hP, hentry]
  refine ⟨⟨s.cp0.toEntry, List.getElem?_set_self hlt, rfl, rfl, rfl, rfl, rfl, rfl, rfl, rfl, rfl, rfl, rfl, rfl⟩,
    List.length_set, fun k hk => List.getElem?_set_ne hk.symm, s.tlb[s.cp0.indexField], List.getElem?_eq_getElem hlt,
    TlbEntry.hiWord_eq _, packLo_eq _ _ _ _ _, packLo_eq _ _ _ _ _, packMask_eq _, rfl⟩

/-- Packing the entry made of the four registers gives them back, when they are legal, their G bits agree and bits 29:26
of both EntryLo registers are 0 (R356, C4). -/
theorem Cp0.Inv.fromEntry_toEntry {p : Config} (h : c.Inv p) (hg : c.entryLo0.getLsbD 0 = c.entryLo1.getLsbD 0)
    (hlo0 : c.entryLo0 &&& 0x3C000000 = 0) (hlo1 : c.entryLo1 &&& 0x3C000000 = 0) (d : Cp0) :
    (d.fromEntry c.toEntry).entryHi = c.entryHi ∧ (d.fromEntry c.toEntry).entryLo0 = c.entryLo0 ∧
      (d.fromEntry c.toEntry).entryLo1 = c.entryLo1 ∧ (d.fromEntry c.toEntry).pageMask = c.pageMask := by
  have hg0 : c.toEntry.g = c.entryLo0.getLsbD 0 := by rw [Cp0.toEntry, ← hg, Bool.and_self]
  have hg1 : c.toEntry.g = c.entryLo1.getLsbD 0 := hg0.trans hg
  refine ⟨Cp0.toEntry_hiWord h.entryHi_zeros, ?_, ?_, packMask_field h.pageMask_zeros⟩
  · rw [Cp0.fromEntry, hg0]
    exact packLo_fields h.entryLo0_zeros hlo0
  · rw [Cp0.fromEntry, hg1]
    exact packLo_fields h.entryLo1_zeros hlo1

/-- Settles O59: TLBR finds at Index the entry TLBWI made of the four registers. -/
theorem tlbRoundTrip : Obligations.TlbRoundTrip := by
  intro s t u v hinv hP hg hlo0 hlo1 hwrite hindex htlb hread
  have hP : ¬s.cp0.indexP = true := by simp [hP]
  rw [exec_tlbwi, if_neg hP] at hwrite
  obtain rfl := Host.Outcome.next.inj hwrite
  have hPu : ¬u.cp0.indexP = true := by rwa [Cp0.indexP, hindex]
  have hfield : u.cp0.indexField = s.cp0.indexField := congrArg (fun w : Word => (w.extractLsb' 0 6).toNat) hindex
  have hlt : s.cp0.indexField < s.tlb.length := hinv.tlb_length ▸ hinv.cp0_inv.index_lt
  have hentry : u.tlb.getD u.cp0.indexField TlbEntry.zero = s.cp0.toEntry := by
    rw [hfield, htlb]
    simp [hlt]
  rw [exec_tlbr, if_neg hPu, hentry] at hread
  obtain rfl := Host.Outcome.next.inj hread
  exact hinv.cp0_inv.fromEntry_toEntry hg hlo0 hlo1 u.cp0

/-! ### TLBWR (47_cop0.md R358) -/

/-- Under the CP0 invariants the clamp of R358 does nothing: TLBWR writes the entry Random names. -/
theorem Cp0.Inv.randomEntry_eq {p : Config} (h : c.Inv p) : c.randomEntry p.tlbSize = c.random.toNat := by
  have hwired := h.wired_le_random
  have hrandom := h.random_lt
  rw [Cp0.randomEntry]
  omega

/-- Settles O60: the entry TLBWI would store goes to the place Random names, and Random steps. -/
theorem randomTlbWrite : Obligations.RandomTlbWrite := by
  refine ⟨coIs, fun s hinv hlen hn => ?_⟩
  obtain ⟨honly, hretires⟩ := updateCp0Tlb_spec s (s.cp0.randomStep s.cfg.tlbSize)
    (s.tlb.set (s.cp0.randomEntry s.cfg.tlbSize) s.cp0.toEntry)
  have hlt := hinv.random_lt
  have hstep := s.cp0.randomStep_random (Nat.one_le_of_lt hlt) hn
  have hwired : s.cp0.random.toNat ≤ s.cp0.wired.toNat ↔ s.cp0.random.toNat = s.cp0.wired.toNat :=
    ⟨fun hle => le_antisymm hle hinv.wired_le_random, le_of_eq⟩
  refine ⟨_, rfl, honly, hretires, ?_, fun k hk => ?_, hstep.trans (if_congr hwired rfl rfl), rfl⟩
  · simp [hinv.randomEntry_eq, hlen, hlt]
  · simp [hinv.randomEntry_eq, hk.symm]

end Sys2Proof.Machine
end

section
/-! The exceptions and reset families (60_exceptions.md, 70_reset_and_hazards.md): the raise whole, the vector, the
interrupt poll, the timer, what the constructor leaves, and the words the spec writes out. -/

namespace Sys2Proof.Machine

/-! ### Taking an exception (60_exceptions.md R388, 20_memory.md R90) -/

/-- Settles O9: `TakesException` has what the raise shows in the next state, the laws of `Cp0.raise` have its frame, and an
address error differs from the raise in BadVAddr alone, by definition. -/
theorem exceptionEntrySavesAndRedirects : Obligations.ExceptionEntrySavesAndRedirects := by
  intro s e
  have h := takesException_raise s e
  exact ⟨h.excCode, h.bd, h.epc, h.exl, fun _ hj => Cp0.raise_cause_of_outside _ _ _ _ hj,
    fun _ hj => Cp0.raise_status_of_ne _ _ _ _ hj, Cp0.raise_others _ _ _ _, h.pc, h.inDelay, h.running, h.gprs, h.hiLo,
    h.mem, h.tlb, h.cfg, fun _ => ⟨rfl, rfl, rfl⟩⟩

/-! ### The vector (60_exceptions.md R392) -/

/-- The lower bound of EBase's range is its top bit. -/
theorem Cp0.ebase_in_range_iff (c : Cp0) :
    0x80000000 ≤ c.ebase.toNat ∧ c.ebase.toNat < 0xBFC00000 ↔ c.ebase.msb = true ∧ c.ebase < 0xBFC00000#32 := by
  have hmsb : 0x80000000 ≤ c.ebase.toNat ↔ c.ebase.msb = true := by
    rw [BitVec.msb_eq_decide, decide_eq_true_iff]
  exact and_congr hmsb Iff.rfl

theorem Cp0.vectorBase_of_in_range {c : Cp0} (h : c.ebase.msb = true ∧ c.ebase < 0xBFC00000#32) :
    c.vectorBase = c.ebase :=
  if_pos (c.ebase_in_range_iff.2 h)

theorem Cp0.vectorBase_of_not_in_range {c : Cp0} (h : ¬(c.ebase.msb = true ∧ c.ebase < 0xBFC00000#32)) :
    c.vectorBase = 0xBFC00000 :=
  if_neg (mt c.ebase_in_range_iff.1 h)

theorem Cp0.vectorFor_of_int_iv {c : Cp0} {e : ExcCode} (h : e = .int ∧ c.iv = true) :
    c.vectorFor e = c.vectorBase + 0x200 := by
  rw [Cp0.vectorFor, if_pos h]

theorem Cp0.vectorFor_of_not_int_iv {c : Cp0} {e : ExcCode} (h : ¬(e = .int ∧ c.iv = true)) :
    c.vectorFor e = c.vectorBase + 0x180 := by
  rw [Cp0.vectorFor, if_neg h]

/-- Settles O10, row by row: a base and an offset each. -/
theorem vectorFollowsEbaseAndIv : Obligations.VectorFollowsEbaseAndIv := by
  intro c e
  refine ⟨fun hbase hoff => ?_, fun hbase hoff => ?_, fun hbase hoff => ?_, fun hbase hoff => ?_⟩
  · rw [Cp0.vectorFor_of_int_iv hoff, Cp0.vectorBase_of_in_range hbase]
  · rw [Cp0.vectorFor_of_not_int_iv hoff, Cp0.vectorBase_of_in_range hbase]
  · rw [Cp0.vectorFor_of_int_iv hoff, Cp0.vectorBase_of_not_in_range hbase]; rfl
  · rw [Cp0.vectorFor_of_not_int_iv hoff, Cp0.vectorBase_of_not_in_range hbase]; rfl

/-! ### The interrupt poll (60_exceptions.md R400) -/

theorem ne_zero_iff_exists_bit {n : Nat} (x : BitVec n) : x ≠ 0 ↔ ∃ i < n, x.getLsbD i = true := by
  rw [Ne, BitVec.eq_of_getLsbD_eq_iff]
  simp

/-- An interrupt line is pending and enabled where Cause.IP and Status.IM meet. -/
theorem Cp0.getLsbD_ip_and_im (c : Cp0) {n : Nat} (hn : n < 8) :
    (c.ip &&& c.im).getLsbD n = (c.cause.getLsbD (8 + n) && c.status.getLsbD (8 + n)) := by
  simp [Cp0.ip, Cp0.im, hn, -BitVec.getLsbD_eq_getElem]

theorem Cp0.ip_and_im_ne_zero_iff (c : Cp0) : c.ip &&& c.im ≠ 0 ↔
    ∃ n < 8, c.cause.getLsbD (8 + n) = true ∧ c.status.getLsbD (8 + n) = true := by
  rw [ne_zero_iff_exists_bit]
  refine exists_congr fun n => and_congr_right fun hn => ?_
  rw [c.getLsbD_ip_and_im hn, Bool.and_eq_true]

/-- Settles O12: the poll is the three Status bits and the meeting of IP and IM. -/
theorem pendingInterruptCondition : Obligations.PendingInterruptCondition := by
  intro c
  simp only [Cp0.pendingInterrupt, Cp0.ie, Cp0.exl, Cp0.erl, Bool.and_eq_true, Bool.not_eq_true', bne_iff_ne,
    c.ip_and_im_ne_zero_iff, and_assoc]

/-! ### The timer (60_exceptions.md R404) -/

theorem Cp0.tick_count_toNat (c : Cp0) : c.tick.count.toNat = (c.count.toNat + 1) % 2 ^ 32 := by
  rw [c.tick_count, BitVec.toNat_add]
  rfl

theorem Cp0.tick_cause_of_match {c : Cp0} (h : c.compare ≠ 0 ∧ c.tick.count = c.compare) (j : Nat) :
    c.tick.cause.getLsbD j = if j = 15 then true else if j = 30 then true else c.cause.getLsbD j := by
  rw [c.tick_cause, if_pos (c.tick_count ▸ h)]

theorem Cp0.tick_cause_of_no_match {c : Cp0} (h : ¬(c.compare ≠ 0 ∧ c.tick.count = c.compare)) :
    c.tick.cause = c.cause :=
  eq_of_bits fun j => by rw [c.tick_cause, if_neg (c.tick_count ▸ h)]

/-- Settles O13, by whether the new Count equals a Compare that is not 0. -/
theorem tickCountsAndFiresOnTheExactMatch : Obligations.TickCountsAndFiresOnTheExactMatch := by
  intro c
  refine ⟨c.tick_count_toNat, fun hcompare hcount => ?_, fun h => Cp0.tick_cause_of_no_match h, c.tick_others⟩
  have hcause := Cp0.tick_cause_of_match ⟨hcompare, hcount⟩
  exact ⟨hcause 30, hcause 15, fun j h30 h15 => by rw [hcause, if_neg h15, if_neg h30]⟩

/-! ### Reset (70_reset_and_hazards.md R431 to R434) -/

theorem readGpr_newCpu (c : Config) (n : Nat) : (State.newCpu c).readGpr n = 0 := by
  simp only [State.readGpr, State.newCpu]
  split
  · rfl
  · rw [Vector.getElem?_replicate]
    split <;> rfl

/-- The CP0 registers that reset does not zero hold Random's top value and the parameters. -/
theorem Cp0.read_reset (c : Config) {p : Nat × Nat} (hp : p ∈ cp0Pairs) : (Cp0.reset c).read p.1 p.2 =
    if p = (1, 0) then BitVec.ofNat 32 (c.tlbSize - 1) else if p = (15, 0) then c.pridValue
    else if p = (16, 0) then c.config0Reset else if p = (16, 1) then c.config1Value else 0 := by
  fin_cases hp <;> rfl

theorem Cp0.read_reset_eq_zero (c : Config) {reg sel : Nat}
    (h : (reg, sel) ∉ [(1, 0), (15, 0), (16, 0), (16, 1)]) : (Cp0.reset c).read reg sel = 0 := by
  by_cases hp : (reg, sel) ∈ cp0Pairs
  · simp only [List.mem_cons, List.not_mem_nil, or_false, not_or] at h
    obtain ⟨hrandom, hprid, hconfig0, hconfig1⟩ := h
    rw [Cp0.read_reset c hp, if_neg hrandom, if_neg hprid, if_neg hconfig0, if_neg hconfig1]
  · exact Cp0.read_of_not_mem _ hp

/-- Settles O15: the registers, CP0 and the TLB one by one; every field of the state beside them is its value by definition. -/
theorem newCpuIsTheResetState : Obligations.NewCpuIsTheResetState := fun c =>
  ⟨readGpr_newCpu c, rfl, rfl, rfl, rfl, rfl, rfl, rfl, rfl, rfl, rfl, fun _ _ h => Cp0.read_reset_eq_zero c h,
    List.length_replicate, fun _ he => List.eq_of_mem_replicate he, rfl, rfl⟩

end Sys2Proof.Machine
end

section
/-! The words the spec writes out (95_test_vectors.md). -/

namespace Sys2Proof

/-- Settles O5: the decoder evaluated on each of the twelve words. -/
theorem wordsTheSpecWritesOutDecode : Obligations.WordsTheSpecWritesOutDecode := by
  unfold Obligations.WordsTheSpecWritesOutDecode
  decide

end Sys2Proof
end
